-- ==== Sys2Proof/Word.lean ====
section
/-! DEFINITION. The word types of the sound core and the three-fold families of things a chip holds. -/

namespace Sys2Proof

/-- A register byte (R22). -/
abbrev Byte := BitVec 8

/-- A 64-bit command word (R80). -/
abbrev CmdWord := BitVec 64

/-- The bit pattern of an IEEE 754 binary32 value, sign in bit 31 (R11, R63). -/
abbrev F32 := BitVec 32

/-- A MIDI key, 0..127 (R41). -/
abbrev Key := BitVec 7

/-- A velocity, 0..127 (R41). -/
abbrev Velocity := BitVec 7

/-- Voices are numbered 1, 2, 3 (R13). -/
inductive VoiceId where
  | v1
  | v2
  | v3
  deriving DecidableEq, Repr

/-- One thing for each of the three voices (`NVOICE` = 3, R9). -/
structure PerVoice (α : Type) where
  v1 : α
  v2 : α
  v3 : α
  deriving DecidableEq, Repr

/-- The thing of voice `v`. -/
def PerVoice.get {α : Type} (p : PerVoice α) : VoiceId → α
  | .v1 => p.v1
  | .v2 => p.v2
  | .v3 => p.v3

/-- `p` with the thing of voice `v` replaced by `x`. -/
def PerVoice.set {α : Type} (p : PerVoice α) (v : VoiceId) (x : α) : PerVoice α :=
  match v with
  | .v1 => { p with v1 := x }
  | .v2 => { p with v2 := x }
  | .v3 => { p with v3 := x }

/-- Each voice's thing mapped, with the voice known. -/
def PerVoice.mapVoice {α β : Type} (f : VoiceId → α → β) (p : PerVoice α) : PerVoice β :=
  { v1 := f .v1 p.v1, v2 := f .v2 p.v2, v3 := f .v3 p.v3 }

end Sys2Proof
end

