-- ==== Sys2Proof/Syntax.lean ====
section
/-! DEFINITION. The instructions: the 44 commands of R3, one constructor for each row of the opcode table, with the
operands of R87 as the command word carries them. -/

namespace Sys2Proof

/-- A command (R3). `h` is the raw handle field (8-bit two's complement), `d` the data byte, `p` the binary32 parameter. -/
inductive Instr where
  /-- `WR.V1_FREQ_LO` (address `0x00`, R112). -/
  | wrV1FreqLo (h d : Byte)
  /-- `WR.V1_FREQ_HI` (address `0x01`, R113). -/
  | wrV1FreqHi (h d : Byte)
  /-- `WR.V1_PW_LO` (address `0x02`, R114). -/
  | wrV1PwLo (h d : Byte)
  /-- `WR.V1_PW_HI` (address `0x03`, R115). -/
  | wrV1PwHi (h d : Byte)
  /-- `WR.V1_CTRL` (address `0x04`, R116). -/
  | wrV1Ctrl (h d : Byte)
  /-- `WR.V1_AD` (address `0x05`, R117). -/
  | wrV1Ad (h d : Byte)
  /-- `WR.V1_SR` (address `0x06`, R118). -/
  | wrV1Sr (h d : Byte)
  /-- `WR.V2_FREQ_LO` (address `0x07`, R119). -/
  | wrV2FreqLo (h d : Byte)
  /-- `WR.V2_FREQ_HI` (address `0x08`, R120). -/
  | wrV2FreqHi (h d : Byte)
  /-- `WR.V2_PW_LO` (address `0x09`, R121). -/
  | wrV2PwLo (h d : Byte)
  /-- `WR.V2_PW_HI` (address `0x0A`, R122). -/
  | wrV2PwHi (h d : Byte)
  /-- `WR.V2_CTRL` (address `0x0B`, R123). -/
  | wrV2Ctrl (h d : Byte)
  /-- `WR.V2_AD` (address `0x0C`, R124). -/
  | wrV2Ad (h d : Byte)
  /-- `WR.V2_SR` (address `0x0D`, R125). -/
  | wrV2Sr (h d : Byte)
  /-- `WR.V3_FREQ_LO` (address `0x0E`, R126). -/
  | wrV3FreqLo (h d : Byte)
  /-- `WR.V3_FREQ_HI` (address `0x0F`, R127). -/
  | wrV3FreqHi (h d : Byte)
  /-- `WR.V3_PW_LO` (address `0x10`, R128). -/
  | wrV3PwLo (h d : Byte)
  /-- `WR.V3_PW_HI` (address `0x11`, R129). -/
  | wrV3PwHi (h d : Byte)
  /-- `WR.V3_CTRL` (address `0x12`, R130). -/
  | wrV3Ctrl (h d : Byte)
  /-- `WR.V3_AD` (address `0x13`, R131). -/
  | wrV3Ad (h d : Byte)
  /-- `WR.V3_SR` (address `0x14`, R132). -/
  | wrV3Sr (h d : Byte)
  /-- `WR.FC_LO` (address `0x15`, R133). -/
  | wrFcLo (h d : Byte)
  /-- `WR.FC_HI` (address `0x16`, R134). -/
  | wrFcHi (h d : Byte)
  /-- `WR.RES_FILT` (address `0x17`, R135). -/
  | wrResFilt (h d : Byte)
  /-- `WR.MODE_VOL` (address `0x18`, R136). -/
  | wrModeVol (h d : Byte)
  /-- `WR.RSV19` (address `0x19`, R137). -/
  | wrRsv19 (h d : Byte)
  /-- `WR.RSV1A` (address `0x1A`, R138). -/
  | wrRsv1A (h d : Byte)
  /-- `WR.OSC3` (address `0x1B`, R139). -/
  | wrOsc3 (h d : Byte)
  /-- `WR.ENV3` (address `0x1C`, R140). -/
  | wrEnv3 (h d : Byte)
  /-- `WR.CONTROL` (address `0x1D`, R147). -/
  | wrControl (h d : Byte)
  /-- `CREATE` (R151). -/
  | create (h : Byte) (p : F32)
  /-- `DESTROY` (R152). -/
  | destroy (h : Byte) (p : F32)
  /-- `ADVANCE` (R153). -/
  | advance (h : Byte) (p : F32)
  /-- `SET_GAIN` (R154). -/
  | setGain (h : Byte) (p : F32)
  /-- `SET_DETUNE` (R155). -/
  | setDetune (h : Byte) (p : F32)
  /-- `SET_LEAKAGE` (R156). -/
  | setLeakage (h : Byte) (p : F32)
  /-- `SET_SNR` (R157). -/
  | setSnr (h : Byte) (p : F32)
  /-- `SET_DCBIAS` (R158). -/
  | setDcbias (h : Byte) (p : F32)
  /-- `SET_POLEMIX` (R159). -/
  | setPolemix (h : Byte) (p : F32)
  /-- `SET_CLOCKRATE` (R160). -/
  | setClockrate (h : Byte) (p : F32)
  /-- `NOTE_ON` (R264). -/
  | noteOn (key : Key) (vel : Velocity)
  /-- `NOTE_OFF` (R266). -/
  | noteOff (key : Key) (vel : Velocity)
  /-- `CTRL_CHANGE` (R267). -/
  | ctrlChange (idx : BitVec 7) (val : BitVec 14)
  /-- `CLK` (R265). -/
  | clk
  deriving DecidableEq, Repr

end Sys2Proof
end

