-- ==== Sys2Proof/WellFormed.lean ====
section
/-! DEFINITION. Which commands have operands inside the legal ranges of R87 that do not depend on the state. -/

namespace Sys2Proof

/-- A handle field is negative (R332: handles 128..255 of the raw field are -128..-1 and are always invalid). -/
def handleNegative (h : Byte) : Bool := h.msb

/-- R87: a handle operand is not negative (CREATE does not look at its handle, R332), and a controller index is at
most 99. Every other operand is legal at every value its field holds. -/
def WellFormed : Instr → Bool
  | .wrV1FreqLo h _ => !handleNegative h
  | .wrV1FreqHi h _ => !handleNegative h
  | .wrV1PwLo h _ => !handleNegative h
  | .wrV1PwHi h _ => !handleNegative h
  | .wrV1Ctrl h _ => !handleNegative h
  | .wrV1Ad h _ => !handleNegative h
  | .wrV1Sr h _ => !handleNegative h
  | .wrV2FreqLo h _ => !handleNegative h
  | .wrV2FreqHi h _ => !handleNegative h
  | .wrV2PwLo h _ => !handleNegative h
  | .wrV2PwHi h _ => !handleNegative h
  | .wrV2Ctrl h _ => !handleNegative h
  | .wrV2Ad h _ => !handleNegative h
  | .wrV2Sr h _ => !handleNegative h
  | .wrV3FreqLo h _ => !handleNegative h
  | .wrV3FreqHi h _ => !handleNegative h
  | .wrV3PwLo h _ => !handleNegative h
  | .wrV3PwHi h _ => !handleNegative h
  | .wrV3Ctrl h _ => !handleNegative h
  | .wrV3Ad h _ => !handleNegative h
  | .wrV3Sr h _ => !handleNegative h
  | .wrFcLo h _ => !handleNegative h
  | .wrFcHi h _ => !handleNegative h
  | .wrResFilt h _ => !handleNegative h
  | .wrModeVol h _ => !handleNegative h
  | .wrRsv19 h _ => !handleNegative h
  | .wrRsv1A h _ => !handleNegative h
  | .wrOsc3 h _ => !handleNegative h
  | .wrEnv3 h _ => !handleNegative h
  | .wrControl h _ => !handleNegative h
  | .create _ _ => true
  | .destroy h _ => !handleNegative h
  | .advance h _ => !handleNegative h
  | .setGain h _ => !handleNegative h
  | .setDetune h _ => !handleNegative h
  | .setLeakage h _ => !handleNegative h
  | .setSnr h _ => !handleNegative h
  | .setDcbias h _ => !handleNegative h
  | .setPolemix h _ => !handleNegative h
  | .setClockrate h _ => !handleNegative h
  | .noteOn _ _ => true
  | .noteOff _ _ => true
  | .ctrlChange idx _ => decide (idx.toNat ≤ 99)
  | .clk => true

end Sys2Proof
end

