-- ==== Sys2Proof/Decode.lean ====
section
/-! DEFINITION. Decoding a command word (R80 to R87, R99, R100), and the encoder written from the same formats. -/

namespace Sys2Proof

/-- The class of a command word (R80), which decides the sentinel of a failure (R84). -/
inductive CmdClass where
  | wr
  | io
  | ev
  | clk
  /-- Classes 4..15. -/
  | reserved
  deriving DecidableEq, Repr

/-- Why a word is none of the 44 commands (R81, R100). -/
inductive DecodeError where
  /-- `Fail(BadCmd)`: a reserved class, a non-zero must-be-zero field, an unknown IO id or EV kind. -/
  | badCmd (cls : CmdClass)
  /-- A WR with address `0x1E..0xFF`: `Fail(BadAddr)` once the handle check has passed (R81 steps 4 and 5). -/
  | badAddr (h : Byte)
  deriving DecidableEq, Repr

/-- `W[63:60]` (R80). -/
def fieldClass (w : CmdWord) : BitVec 4 := w.extractLsb' 60 4
/-- `rsvA`, `W[59:56]` (R80). -/
def fieldRsvA (w : CmdWord) : BitVec 4 := w.extractLsb' 56 4
/-- `handle`, `W[55:48]` (R80). -/
def fieldHandle (w : CmdWord) : Byte := w.extractLsb' 48 8
/-- `sel`, `W[47:40]` (R80). -/
def fieldSel (w : CmdWord) : Byte := w.extractLsb' 40 8
/-- `rsvB`, `W[39:32]` (R80). -/
def fieldRsvB (w : CmdWord) : Byte := w.extractLsb' 32 8
/-- `payload`, `W[31:0]` (R80). -/
def fieldPayload (w : CmdWord) : BitVec 32 := w.extractLsb' 0 32

/-- The class named by the field (R80). -/
def classOf (w : CmdWord) : CmdClass :=
  match (fieldClass w).toNat with
  | 0 => .wr
  | 1 => .io
  | 2 => .ev
  | 3 => .clk
  | _ => .reserved

/-- The WR command of a register address (R82, R99); none for `0x1E..0xFF`. -/
def decodeWr (a h d : Byte) : Option Instr :=
  match a.toNat with
  | 0x00 => some (.wrV1FreqLo h d)
  | 0x01 => some (.wrV1FreqHi h d)
  | 0x02 => some (.wrV1PwLo h d)
  | 0x03 => some (.wrV1PwHi h d)
  | 0x04 => some (.wrV1Ctrl h d)
  | 0x05 => some (.wrV1Ad h d)
  | 0x06 => some (.wrV1Sr h d)
  | 0x07 => some (.wrV2FreqLo h d)
  | 0x08 => some (.wrV2FreqHi h d)
  | 0x09 => some (.wrV2PwLo h d)
  | 0x0A => some (.wrV2PwHi h d)
  | 0x0B => some (.wrV2Ctrl h d)
  | 0x0C => some (.wrV2Ad h d)
  | 0x0D => some (.wrV2Sr h d)
  | 0x0E => some (.wrV3FreqLo h d)
  | 0x0F => some (.wrV3FreqHi h d)
  | 0x10 => some (.wrV3PwLo h d)
  | 0x11 => some (.wrV3PwHi h d)
  | 0x12 => some (.wrV3Ctrl h d)
  | 0x13 => some (.wrV3Ad h d)
  | 0x14 => some (.wrV3Sr h d)
  | 0x15 => some (.wrFcLo h d)
  | 0x16 => some (.wrFcHi h d)
  | 0x17 => some (.wrResFilt h d)
  | 0x18 => some (.wrModeVol h d)
  | 0x19 => some (.wrRsv19 h d)
  | 0x1A => some (.wrRsv1A h d)
  | 0x1B => some (.wrOsc3 h d)
  | 0x1C => some (.wrEnv3 h d)
  | 0x1D => some (.wrControl h d)
  | _ => none

/-- The IO command of an id (R83, R98); none for 10..255. -/
def decodeIo (c h : Byte) (p : F32) : Option Instr :=
  match c.toNat with
  | 0 => some (.create h p)
  | 1 => some (.destroy h p)
  | 2 => some (.advance h p)
  | 3 => some (.setGain h p)
  | 4 => some (.setDetune h p)
  | 5 => some (.setLeakage h p)
  | 6 => some (.setSnr h p)
  | 7 => some (.setDcbias h p)
  | 8 => some (.setPolemix h p)
  | 9 => some (.setClockrate h p)
  | _ => none

/-- `W[6:0]`, the key (R85). -/
def payloadKey (p : BitVec 32) : Key := p.extractLsb' 0 7
/-- `W[14:8]`, the velocity (R85). -/
def payloadVel (p : BitVec 32) : Velocity := p.extractLsb' 8 7
/-- `W[13:0]`, the controller value (R85). -/
def payloadVal (p : BitVec 32) : BitVec 14 := p.extractLsb' 0 14
/-- `W[22:16]`, the controller index (R85). -/
def payloadIdx (p : BitVec 32) : BitVec 7 := p.extractLsb' 16 7

/-- The must-be-zero bits of a NOTE_ON or NOTE_OFF payload are zero: bits 7 and 31:15 (R85). -/
def notePayloadOk (p : BitVec 32) : Bool := p.extractLsb' 7 1 == 0#1 && p.extractLsb' 15 17 == 0#17
/-- The must-be-zero bits of a CTRL_CHANGE payload are zero: bits 15:14 and 31:23 (R85). -/
def ctrlPayloadOk (p : BitVec 32) : Bool := p.extractLsb' 14 2 == 0#2 && p.extractLsb' 23 9 == 0#9

/-- The EV command of a kind and payload (R85): must-be-zero payload bits and unknown kinds are refused. -/
def decodeEv (kind : Byte) (p : BitVec 32) : Option Instr :=
  match kind.toNat with
  | 0 => if notePayloadOk p then some (.noteOn (payloadKey p) (payloadVel p)) else none
  | 1 => if notePayloadOk p then some (.noteOff (payloadKey p) (payloadVel p)) else none
  | 2 => if ctrlPayloadOk p then some (.ctrlChange (payloadIdx p) (payloadVal p)) else none
  | _ => none

/-- The answer of an optional command of class `cls`: none is `Fail(BadCmd)` (R81). -/
def orBadCmd (cls : CmdClass) : Option Instr → Except DecodeError Instr
  | some i => .ok i
  | none => .error (.badCmd cls)

/-- Decode of a command word, in the order of R81. The handle check (step 4) needs the chip pool and the controller
index (step 6) is checked by CTRL_CHANGE itself (R267), so both stand with the meanings. -/
def decode (w : CmdWord) : Except DecodeError Instr :=
  match classOf w with
  | .reserved => .error (.badCmd .reserved)
  | .wr =>
    if fieldRsvA w == 0#4 && fieldRsvB w == 0#8 && (fieldPayload w).extractLsb' 8 24 == 0#24 then
      match decodeWr (fieldSel w) (fieldHandle w) ((fieldPayload w).extractLsb' 0 8) with
      | some i => .ok i
      | none => .error (.badAddr (fieldHandle w))
    else .error (.badCmd .wr)
  | .io =>
    if fieldRsvA w == 0#4 && fieldRsvB w == 0#8 then
      orBadCmd .io (decodeIo (fieldSel w) (fieldHandle w) (fieldPayload w))
    else .error (.badCmd .io)
  | .ev =>
    if fieldRsvA w == 0#4 && fieldRsvB w == 0#8 && fieldHandle w == 0#8 then
      orBadCmd .ev (decodeEv (fieldSel w) (fieldPayload w))
    else .error (.badCmd .ev)
  | .clk =>
    if fieldRsvA w == 0#4 && fieldRsvB w == 0#8 && fieldHandle w == 0#8 && fieldSel w == 0#8
        && fieldPayload w == 0#32 then .ok .clk
    else .error (.badCmd .clk)

/-- A command word from its fields (R80); both reserved fields are 0. -/
def mkWord (cls : BitVec 4) (h sel : Byte) (payload : BitVec 32) : CmdWord :=
  cls ++ 0#4 ++ h ++ sel ++ 0#8 ++ payload

/-- Format WR (R82). -/
def encodeWr (a h d : Byte) : CmdWord := mkWord 0#4 h a (0#24 ++ d)
/-- Format IO (R83). -/
def encodeIo (c h : Byte) (p : F32) : CmdWord := mkWord 1#4 h c p
/-- Format EV, note events (R85). -/
def encodeNote (kind : Byte) (key : Key) (vel : Velocity) : CmdWord :=
  mkWord 2#4 0#8 kind (0#17 ++ vel ++ 0#1 ++ key)
/-- Format EV, controller change (R85). -/
def encodeCtrl (idx : BitVec 7) (val : BitVec 14) : CmdWord :=
  mkWord 2#4 0#8 2#8 (0#9 ++ idx ++ 0#2 ++ val)

/-- The word of a command (R82, R83, R85, R86). -/
def encode : Instr → CmdWord
  | .wrV1FreqLo h d => encodeWr 0x00#8 h d
  | .wrV1FreqHi h d => encodeWr 0x01#8 h d
  | .wrV1PwLo h d => encodeWr 0x02#8 h d
  | .wrV1PwHi h d => encodeWr 0x03#8 h d
  | .wrV1Ctrl h d => encodeWr 0x04#8 h d
  | .wrV1Ad h d => encodeWr 0x05#8 h d
  | .wrV1Sr h d => encodeWr 0x06#8 h d
  | .wrV2FreqLo h d => encodeWr 0x07#8 h d
  | .wrV2FreqHi h d => encodeWr 0x08#8 h d
  | .wrV2PwLo h d => encodeWr 0x09#8 h d
  | .wrV2PwHi h d => encodeWr 0x0A#8 h d
  | .wrV2Ctrl h d => encodeWr 0x0B#8 h d
  | .wrV2Ad h d => encodeWr 0x0C#8 h d
  | .wrV2Sr h d => encodeWr 0x0D#8 h d
  | .wrV3FreqLo h d => encodeWr 0x0E#8 h d
  | .wrV3FreqHi h d => encodeWr 0x0F#8 h d
  | .wrV3PwLo h d => encodeWr 0x10#8 h d
  | .wrV3PwHi h d => encodeWr 0x11#8 h d
  | .wrV3Ctrl h d => encodeWr 0x12#8 h d
  | .wrV3Ad h d => encodeWr 0x13#8 h d
  | .wrV3Sr h d => encodeWr 0x14#8 h d
  | .wrFcLo h d => encodeWr 0x15#8 h d
  | .wrFcHi h d => encodeWr 0x16#8 h d
  | .wrResFilt h d => encodeWr 0x17#8 h d
  | .wrModeVol h d => encodeWr 0x18#8 h d
  | .wrRsv19 h d => encodeWr 0x19#8 h d
  | .wrRsv1A h d => encodeWr 0x1A#8 h d
  | .wrOsc3 h d => encodeWr 0x1B#8 h d
  | .wrEnv3 h d => encodeWr 0x1C#8 h d
  | .wrControl h d => encodeWr 0x1D#8 h d
  | .create h p => encodeIo 0#8 h p
  | .destroy h p => encodeIo 1#8 h p
  | .advance h p => encodeIo 2#8 h p
  | .setGain h p => encodeIo 3#8 h p
  | .setDetune h p => encodeIo 4#8 h p
  | .setLeakage h p => encodeIo 5#8 h p
  | .setSnr h p => encodeIo 6#8 h p
  | .setDcbias h p => encodeIo 7#8 h p
  | .setPolemix h p => encodeIo 8#8 h p
  | .setClockrate h p => encodeIo 9#8 h p
  | .noteOn key vel => encodeNote 0#8 key vel
  | .noteOff key vel => encodeNote 1#8 key vel
  | .ctrlChange idx val => encodeCtrl idx val
  | .clk => mkWord 3#4 0#8 0#8 0#32

/-- The bits every word of the command's row has (R99): the `match` of the opcode table. -/
def rowMatch : Instr → CmdWord
  | .wrV1FreqLo _ _ => 0x0000000000000000#64
  | .wrV1FreqHi _ _ => 0x0000010000000000#64
  | .wrV1PwLo _ _ => 0x0000020000000000#64
  | .wrV1PwHi _ _ => 0x0000030000000000#64
  | .wrV1Ctrl _ _ => 0x0000040000000000#64
  | .wrV1Ad _ _ => 0x0000050000000000#64
  | .wrV1Sr _ _ => 0x0000060000000000#64
  | .wrV2FreqLo _ _ => 0x0000070000000000#64
  | .wrV2FreqHi _ _ => 0x0000080000000000#64
  | .wrV2PwLo _ _ => 0x0000090000000000#64
  | .wrV2PwHi _ _ => 0x00000A0000000000#64
  | .wrV2Ctrl _ _ => 0x00000B0000000000#64
  | .wrV2Ad _ _ => 0x00000C0000000000#64
  | .wrV2Sr _ _ => 0x00000D0000000000#64
  | .wrV3FreqLo _ _ => 0x00000E0000000000#64
  | .wrV3FreqHi _ _ => 0x00000F0000000000#64
  | .wrV3PwLo _ _ => 0x0000100000000000#64
  | .wrV3PwHi _ _ => 0x0000110000000000#64
  | .wrV3Ctrl _ _ => 0x0000120000000000#64
  | .wrV3Ad _ _ => 0x0000130000000000#64
  | .wrV3Sr _ _ => 0x0000140000000000#64
  | .wrFcLo _ _ => 0x0000150000000000#64
  | .wrFcHi _ _ => 0x0000160000000000#64
  | .wrResFilt _ _ => 0x0000170000000000#64
  | .wrModeVol _ _ => 0x0000180000000000#64
  | .wrRsv19 _ _ => 0x0000190000000000#64
  | .wrRsv1A _ _ => 0x00001A0000000000#64
  | .wrOsc3 _ _ => 0x00001B0000000000#64
  | .wrEnv3 _ _ => 0x00001C0000000000#64
  | .wrControl _ _ => 0x00001D0000000000#64
  | .create _ _ => 0x1000000000000000#64
  | .destroy _ _ => 0x1000010000000000#64
  | .advance _ _ => 0x1000020000000000#64
  | .setGain _ _ => 0x1000030000000000#64
  | .setDetune _ _ => 0x1000040000000000#64
  | .setLeakage _ _ => 0x1000050000000000#64
  | .setSnr _ _ => 0x1000060000000000#64
  | .setDcbias _ _ => 0x1000070000000000#64
  | .setPolemix _ _ => 0x1000080000000000#64
  | .setClockrate _ _ => 0x1000090000000000#64
  | .noteOn _ _ => 0x2000000000000000#64
  | .noteOff _ _ => 0x2000010000000000#64
  | .ctrlChange _ _ => 0x2000020000000000#64
  | .clk => 0x3000000000000000#64

/-- The bits the row fixes (R99): the `mask` of the opcode table. -/
def rowMask : Instr → CmdWord
  | .wrV1FreqLo _ _ => 0xFF00FFFFFFFFFF00#64
  | .wrV1FreqHi _ _ => 0xFF00FFFFFFFFFF00#64
  | .wrV1PwLo _ _ => 0xFF00FFFFFFFFFF00#64
  | .wrV1PwHi _ _ => 0xFF00FFFFFFFFFF00#64
  | .wrV1Ctrl _ _ => 0xFF00FFFFFFFFFF00#64
  | .wrV1Ad _ _ => 0xFF00FFFFFFFFFF00#64
  | .wrV1Sr _ _ => 0xFF00FFFFFFFFFF00#64
  | .wrV2FreqLo _ _ => 0xFF00FFFFFFFFFF00#64
  | .wrV2FreqHi _ _ => 0xFF00FFFFFFFFFF00#64
  | .wrV2PwLo _ _ => 0xFF00FFFFFFFFFF00#64
  | .wrV2PwHi _ _ => 0xFF00FFFFFFFFFF00#64
  | .wrV2Ctrl _ _ => 0xFF00FFFFFFFFFF00#64
  | .wrV2Ad _ _ => 0xFF00FFFFFFFFFF00#64
  | .wrV2Sr _ _ => 0xFF00FFFFFFFFFF00#64
  | .wrV3FreqLo _ _ => 0xFF00FFFFFFFFFF00#64
  | .wrV3FreqHi _ _ => 0xFF00FFFFFFFFFF00#64
  | .wrV3PwLo _ _ => 0xFF00FFFFFFFFFF00#64
  | .wrV3PwHi _ _ => 0xFF00FFFFFFFFFF00#64
  | .wrV3Ctrl _ _ => 0xFF00FFFFFFFFFF00#64
  | .wrV3Ad _ _ => 0xFF00FFFFFFFFFF00#64
  | .wrV3Sr _ _ => 0xFF00FFFFFFFFFF00#64
  | .wrFcLo _ _ => 0xFF00FFFFFFFFFF00#64
  | .wrFcHi _ _ => 0xFF00FFFFFFFFFF00#64
  | .wrResFilt _ _ => 0xFF00FFFFFFFFFF00#64
  | .wrModeVol _ _ => 0xFF00FFFFFFFFFF00#64
  | .wrRsv19 _ _ => 0xFF00FFFFFFFFFF00#64
  | .wrRsv1A _ _ => 0xFF00FFFFFFFFFF00#64
  | .wrOsc3 _ _ => 0xFF00FFFFFFFFFF00#64
  | .wrEnv3 _ _ => 0xFF00FFFFFFFFFF00#64
  | .wrControl _ _ => 0xFF00FFFFFFFFFF00#64
  | .create _ _ => 0xFF00FFFF00000000#64
  | .destroy _ _ => 0xFF00FFFF00000000#64
  | .advance _ _ => 0xFF00FFFF00000000#64
  | .setGain _ _ => 0xFF00FFFF00000000#64
  | .setDetune _ _ => 0xFF00FFFF00000000#64
  | .setLeakage _ _ => 0xFF00FFFF00000000#64
  | .setSnr _ _ => 0xFF00FFFF00000000#64
  | .setDcbias _ _ => 0xFF00FFFF00000000#64
  | .setPolemix _ _ => 0xFF00FFFF00000000#64
  | .setClockrate _ _ => 0xFF00FFFF00000000#64
  | .noteOn _ _ => 0xFFFFFFFFFFFF8080#64
  | .noteOff _ _ => 0xFFFFFFFFFFFF8080#64
  | .ctrlChange _ _ => 0xFFFFFFFFFF80C000#64
  | .clk => 0xFFFFFFFFFFFFFFFF#64

/-- The instruction of an `Except`, if it holds one. -/
def decoded : Except DecodeError Instr → Option Instr
  | .ok i => some i
  | .error _ => none

/-- A table word as the interface carries it: one 64-bit word (R80, R63), every bit above `nbits` zero. -/
def tableWord (nbits w : Nat) : CmdWord := BitVec.ofNat 64 (w % 2 ^ nbits)

/-- The instruction the decoder reads from a word numbered as the opcode table numbers it. -/
def decodeTableWord (nbits w : Nat) : Option Instr := decoded (decode (tableWord nbits w))

/-- The pseudo-instructions of the script syntax (R104). -/
inductive Pseudo where
  | create
  | destroy (h : Byte)
  | advance (h : Byte)
  | advanceN (h : Byte) (n : Nat)
  | reset (h : Byte)
  | resetFlags (h flags : Byte)
  | wrFreq (h : Byte) (v : VoiceId) (w : BitVec 16)
  | wrPw (h : Byte) (v : VoiceId) (w : BitVec 12)
  | wrFc (h : Byte) (w : BitVec 11)
  | rdOsc3 (h : Byte)
  | rdEnv3 (h : Byte)
  deriving DecidableEq, Repr

/-- The commands a pseudo-instruction stands for, in order (R104). -/
def expandPseudo : Pseudo → List Instr
  | .create => [.create 0#8 0#32]
  | .destroy h => [.destroy h 0#32]
  | .advance h => [.advance h 0#32]
  | .advanceN h n => List.replicate n (.advance h 0#32)
  | .reset h => [.wrControl h 0x80#8]
  | .resetFlags h flags => [.wrControl h (0x80#8 ||| (flags &&& 0x7F#8))]
  | .wrFreq h .v1 w => [.wrV1FreqLo h (w.extractLsb' 0 8), .wrV1FreqHi h (w.extractLsb' 8 8)]
  | .wrFreq h .v2 w => [.wrV2FreqLo h (w.extractLsb' 0 8), .wrV2FreqHi h (w.extractLsb' 8 8)]
  | .wrFreq h .v3 w => [.wrV3FreqLo h (w.extractLsb' 0 8), .wrV3FreqHi h (w.extractLsb' 8 8)]
  | .wrPw h .v1 w => [.wrV1PwLo h (w.extractLsb' 0 8), .wrV1PwHi h (w.extractLsb' 8 4 |>.setWidth 8)]
  | .wrPw h .v2 w => [.wrV2PwLo h (w.extractLsb' 0 8), .wrV2PwHi h (w.extractLsb' 8 4 |>.setWidth 8)]
  | .wrPw h .v3 w => [.wrV3PwLo h (w.extractLsb' 0 8), .wrV3PwHi h (w.extractLsb' 8 4 |>.setWidth 8)]
  | .wrFc h w => [.wrFcLo h (w.extractLsb' 0 3 |>.setWidth 8), .wrFcHi h (w.extractLsb' 3 8)]
  | .rdOsc3 h => [.wrOsc3 h 0#8]
  | .rdEnv3 h => [.wrEnv3 h 0#8]

end Sys2Proof
end

