-- ==== Sys2Proof/Config.lean ====
section
/-! DEFINITION. What an instantiation of the core fixes (R10, R47), and the free values: opaque constants
for what the spec leaves open. -/

namespace Sys2Proof

/-- Which `DecayMult` the core is instantiated with (R10, D23). -/
inductive DecayInstance where
  /-- The default: the table of R209. -/
  | table
  /-- Any other function of the counter with values at least 1 (U44), named by a number. -/
  | other (n : Nat)
  deriving DecidableEq, Repr

/-- Which `GlideMul` the core is instantiated with (R10, D35). -/
inductive GlideInstance where
  /-- The reference instance of R296: the binary32 nearest to the real root. -/
  | reference
  /-- Any other function that meets the contract of R296 (U45), named by a number. -/
  | other (n : Nat)
  deriving DecidableEq, Repr

/-- The parameters fixed when the core is instantiated and changed by no command (R10, R47). `POOL_SIZE` and
`ARP_CAP` are the lengths of the two arrays they size. -/
structure Cfg where
  /-- `SAMPLE_RATE`, hertz, at least 1 (U41). -/
  sampleRate : Nat
  /-- `BLOCK_SIZE`, a positive multiple of 16 (U42). -/
  blockSize : Nat
  /-- `DecayMult` (U44). -/
  decay : DecayInstance
  /-- `GlideMul` (U45). -/
  glide : GlideInstance
  deriving DecidableEq, Repr

/-- What `93_implementation_defined.md` U41 and U42 ask of an instantiation. -/
abbrev Cfg.wf (c : Cfg) : Prop :=
  1 ≤ c.sampleRate ∧ 16 ≤ c.blockSize ∧ c.blockSize % 16 = 0

/-- The instantiation of the spec's examples (`95_test_vectors.md`, conventions): 44100 Hz, blocks of 256 ticks and
the reference functions. DESIGN CHOICE, unsafe: `State.reset` uses it (log entry 3). -/
def Cfg.example : Cfg :=
  { sampleRate := 44100, blockSize := 256, decay := .table, glide := .reference }

/-- The binary32 operations that can give a NaN. -/
inductive FloatOp where
  | add
  | sub
  | mul
  | div
  deriving DecidableEq, Repr

/-- Free value: sign and payload of the quiet NaN an operation gives; IEEE 754 fixes neither (R251, log entry 8). -/
opaque Config.nanBits : FloatOp → F32 → F32 → BitVec 1 × BitVec 22

/-- Free value: `f2i` of a value that is not finite, for which R308 states no result (log entry 9). -/
opaque Config.f2iNonFinite : F32 → Int

/-- Free value: the values of the `n`-th other `DecayMult` (log entry 5). -/
opaque Config.decayOther : Nat → Byte → Nat

/-- Free value: the values of the `n`-th other `GlideMul` (log entry 6). -/
opaque Config.glideOther : Nat → F32 → Nat → F32

/-- Free value: `GlideMul` where its precondition (a finite positive ratio) fails (log entry 7). -/
opaque Config.glideUndefined : F32 → Nat → F32

end Sys2Proof
end

