-- ==== Sys2Proof/Machine/Binary32.lean ====
section
/-! DEFINITION. The binary32 operations of R12 and R231, on bit patterns: each exact on integers, then rounded once to
nearest even, with no flush to zero. The rules for zeros, infinities and division by zero are those of the IEEE 754
standard the spec names (PRESUMED, log entry 10); the bits of a NaN result are a free value (log entry 8). -/

namespace Sys2Proof.Machine

open Sys2Proof

/-- A binary32 value taken apart: a finite value is `(-1)^neg * m * 2^e`. -/
inductive Unpacked where
  | nan
  | inf (neg : Bool)
  | fin (neg : Bool) (m : Nat) (e : Int)
  deriving DecidableEq, Repr

/-- The biased exponent field of a binary32 pattern. -/
def f32Exp (x : F32) : Nat := (x.extractLsb' 23 8).toNat

/-- The fraction field of a binary32 pattern. -/
def f32Frac (x : F32) : Nat := (x.extractLsb' 0 23).toNat

/-- The value of a binary32 pattern (R11). -/
def unpack (x : F32) : Unpacked :=
  if f32Exp x = 255 then
    if f32Frac x = 0 then .inf x.msb else .nan
  else if f32Exp x = 0 then .fin x.msb (f32Frac x) (-149)
  else .fin x.msb (f32Frac x + 2 ^ 23) ((f32Exp x : Int) - 150)

/-- `x` is neither infinite nor a NaN. -/
def isFinite (x : F32) : Bool := decide (f32Exp x ≠ 255)

/-- `m * 2^(-k)` rounded to the nearest integer, ties to even. -/
def roundShift (m : Nat) (k : Int) : Nat :=
  match k with
  | .ofNat (n + 1) =>
    let d := 2 ^ (n + 1)
    if d < 2 * (m % d) ∨ (2 * (m % d) = d ∧ m / d % 2 = 1) then m / d + 1 else m / d
  | .ofNat 0 => m
  | .negSucc n => m * 2 ^ (n + 1)

/-- The exponent of the last place of the binary32 nearest to `m * 2^e` (`m` positive). -/
def ulpExp (m : Nat) (e : Int) : Int :=
  if e + (m.log2 : Int) - 23 < -149 then -149 else e + (m.log2 : Int) - 23

/-- Exponent and fraction fields of the binary32 nearest to `m * 2^e`, ties to even; at or above the top, infinity. -/
def roundMag (m : Nat) (e : Int) : Nat :=
  if m = 0 then 0
  else
    let t := ulpExp m e
    let bits := (t + 149).toNat * 2 ^ 23 + roundShift m (t - e)
    if bits < 0x7F800000 then bits else 0x7F800000

/-- A pattern from a sign and the other 31 bits. -/
def withSign (neg : Bool) (mag : Nat) : F32 := BitVec.ofBool neg ++ BitVec.ofNat 31 mag

/-- The binary32 nearest to `(-1)^neg * m * 2^e` (R12, R231). -/
def roundPack (neg : Bool) (m : Nat) (e : Int) : F32 := withSign neg (roundMag m e)

/-- A zero with a sign. -/
def f32Zero (neg : Bool) : F32 := withSign neg 0

/-- An infinity with a sign. -/
def f32Inf (neg : Bool) : F32 := withSign neg 0x7F800000

/-- The quiet NaN an operation gives; its sign and payload are a free value (R251, log entry 8). -/
def f32NaN (op : FloatOp) (a b : F32) : F32 :=
  (Config.nanBits op a b).1 ++ 0xFF#8 ++ 1#1 ++ (Config.nanBits op a b).2

/-- `x` with its sign bit changed. -/
def f32Neg (x : F32) : F32 := x ^^^ 0x80000000#32

/-- `m * 2^e` as a multiple of `2^e0`, for `e0 ≤ e`, signed. -/
def scaled (neg : Bool) (m : Nat) (e e0 : Int) : Int :=
  if neg then -((m * 2 ^ (e - e0).toNat : Nat) : Int) else ((m * 2 ^ (e - e0).toNat : Nat) : Int)

/-- The smaller of two exponents. -/
def minExp (a b : Int) : Int := if a ≤ b then a else b

/-- The rounded sum of two finite values; an exact zero sum is `-0.0` only when both are negative. -/
def addFin (n1 : Bool) (m1 : Nat) (e1 : Int) (n2 : Bool) (m2 : Nat) (e2 : Int) : F32 :=
  let e0 := minExp e1 e2
  let s := scaled n1 m1 e1 e0 + scaled n2 m2 e2 e0
  if s = 0 then f32Zero (n1 && n2) else roundPack (decide (s < 0)) s.natAbs e0

/-- Addition of `a` and `b`, a NaN result labelled `op`, `x`, `y`. -/
def addCore (op : FloatOp) (x y a b : F32) : F32 :=
  match unpack a, unpack b with
  | .nan, _ => f32NaN op x y
  | _, .nan => f32NaN op x y
  | .inf n, .inf k => if n = k then f32Inf n else f32NaN op x y
  | .inf n, .fin _ _ _ => f32Inf n
  | .fin _ _ _, .inf n => f32Inf n
  | .fin n1 m1 e1, .fin n2 m2 e2 => addFin n1 m1 e1 n2 m2 e2

/-- `fadd` (R12). -/
def fadd (a b : F32) : F32 := addCore .add a b a b

/-- `fsub` (R12). -/
def fsub (a b : F32) : F32 := addCore .sub a b a (f32Neg b)

/-- `fmul` (R12). -/
def fmul (a b : F32) : F32 :=
  match unpack a, unpack b with
  | .nan, _ => f32NaN .mul a b
  | _, .nan => f32NaN .mul a b
  | .inf n, .inf k => f32Inf (n ^^ k)
  | .inf n, .fin k m _ => if m = 0 then f32NaN .mul a b else f32Inf (n ^^ k)
  | .fin n m _, .inf k => if m = 0 then f32NaN .mul a b else f32Inf (n ^^ k)
  | .fin n1 m1 e1, .fin n2 m2 e2 => roundPack (n1 ^^ n2) (m1 * m2) (e1 + e2)

/-- The rounded quotient of two finite values, `m2` positive: 64 extra bits and a sticky bit decide the rounding. -/
def divFin (n1 : Bool) (m1 : Nat) (e1 : Int) (n2 : Bool) (m2 : Nat) (e2 : Int) : F32 :=
  let q := m1 * 2 ^ 64 / m2
  let sticky := if m1 * 2 ^ 64 % m2 = 0 then 0 else 1
  roundPack (n1 ^^ n2) (2 * q + sticky) (e1 - e2 - 65)

/-- `fdiv` (R12). -/
def fdiv (a b : F32) : F32 :=
  match unpack a, unpack b with
  | .nan, _ => f32NaN .div a b
  | _, .nan => f32NaN .div a b
  | .inf _, .inf _ => f32NaN .div a b
  | .inf n, .fin k _ _ => f32Inf (n ^^ k)
  | .fin n _ _, .inf k => f32Zero (n ^^ k)
  | .fin n1 m1 e1, .fin n2 m2 e2 =>
    if m2 = 0 then (if m1 = 0 then f32NaN .div a b else f32Inf (n1 ^^ n2))
    else divFin n1 m1 e1 n2 m2 e2

/-- IEEE 754 `a < b`; false when either is a NaN. -/
def flt (a b : F32) : Bool :=
  match unpack a, unpack b with
  | .nan, _ => false
  | _, .nan => false
  | .inf n, .inf k => n && !k
  | .inf n, .fin _ _ _ => n
  | .fin _ _ _, .inf k => !k
  | .fin n1 m1 e1, .fin n2 m2 e2 =>
    decide (scaled n1 m1 e1 (minExp e1 e2) < scaled n2 m2 e2 (minExp e1 e2))

/-- IEEE 754 `a ≤ b`; false when either is a NaN. -/
def fle (a b : F32) : Bool :=
  match unpack a, unpack b with
  | .nan, _ => false
  | _, .nan => false
  | .inf n, .inf k => n || !k
  | .inf n, .fin _ _ _ => n
  | .fin _ _ _, .inf k => !k
  | .fin n1 m1 e1, .fin n2 m2 e2 =>
    decide (scaled n1 m1 e1 (minExp e1 e2) ≤ scaled n2 m2 e2 (minExp e1 e2))

/-- `i2f` (R12). -/
def i2f (n : Int) : F32 := roundPack (decide (n < 0)) n.natAbs 0

/-- `f2i` (R308): the nearest integer, ties to even; of a value that is not finite, a free value (log entry 9). -/
def f2i (x : F32) : Int :=
  match unpack x with
  | .fin n m e => if n then -(roundShift m (-e) : Int) else (roundShift m (-e) : Int)
  | _ => Config.f2iNonFinite x

/-- `floor(x * 2^k)` of a finite non-negative `x` (R155, R160); 0 for any other value, which no caller gives. -/
def floorScaled (x : F32) (k : Nat) : Nat :=
  match unpack x with
  | .fin false m e =>
    match e + k with
    | .ofNat n => m * 2 ^ n
    | .negSucc n => m / 2 ^ (n + 1)
  | _ => 0

/-- `clamp(v, lo, hi)` on integers (R12). -/
def clampInt (v lo hi : Int) : Int := if v < lo then lo else if hi < v then hi else v

end Sys2Proof.Machine
end

