-- ==== Sys2Proof/Machine/Tables.lean ====
section
/-! DEFINITION. The named constants and tables of the spec: binary32 constants, rate times, the frequency table, the
semitone ratios, the default `DecayMult` and the reference `GlideMul`. -/

namespace Sys2Proof.Machine

open Sys2Proof

/-- 1.0 -/
def f1 : F32 := 0x3F800000#32
/-- 0.5 -/
def fHalf : F32 := 0x3F000000#32
/-- 0.125 -/
def fEighth : F32 := 0x3E000000#32
/-- 0.0625 -/
def fSixteenth : F32 := 0x3D800000#32
/-- 0.09375 = 3/32 -/
def f3over32 : F32 := 0x3DC00000#32
/-- 1.5 -/
def f1p5 : F32 := 0x3FC00000#32
/-- 4.0 -/
def f4 : F32 := 0x40800000#32
/-- -1.0 -/
def fNeg1 : F32 := 0xBF800000#32
/-- 15.0 -/
def f15 : F32 := 0x41700000#32
/-- 127.0 -/
def f127 : F32 := 0x42FE0000#32
/-- 128.0 -/
def f128 : F32 := 0x43000000#32
/-- 255.0 -/
def f255 : F32 := 0x437F0000#32
/-- 1024.0 -/
def f1024 : F32 := 0x44800000#32
/-- 2048.0 -/
def f2048 : F32 := 0x45000000#32
/-- 16383.0 -/
def f16383 : F32 := 0x467FFC00#32
/-- 65536.0 -/
def f65536 : F32 := 0x47800000#32
/-- 16777215.0 -/
def f16777215 : F32 := 0x4B7FFFFF#32
/-- 2^-13 -/
def f2m13 : F32 := 0x39000000#32
/-- 2^-17 -/
def f2m17 : F32 := 0x37000000#32
/-- +0.0 -/
def fPos0 : F32 := 0#32

/-- The ladder's correction coefficients (R241). -/
def ladder18730 : F32 := 0x3FEFBE77#32
/-- 0.4955 (R241). -/
def ladder04955 : F32 := 0x3EFDB22D#32
/-- -0.6490 (R241). -/
def ladderM06490 : F32 := 0xBF2624DD#32
/-- 0.9988 (R241). -/
def ladder09988 : F32 := 0x3F7FB15B#32
/-- -3.9364 (R241). -/
def ladderM39364 : F32 := 0xC07BEDFA#32
/-- 1.8409 (R241). -/
def ladder18409 : F32 := 0x3FEBA29C#32
/-- 0.9968 (R241). -/
def ladder09968 : F32 := 0x3F7F2E49#32

/-- `SUBBLOCK` (R9). -/
def subblock : Nat := 16

/-- `CLK_HZ_DEFAULT` (R10). -/
def clkHzDefault : BitVec 24 := 1000000#24

/-- `RATE_MS` (R201). -/
def rateMs (code : BitVec 4) : Nat :=
  match code.toNat with
  | 0 => 2
  | 1 => 8
  | 2 => 16
  | 3 => 24
  | 4 => 38
  | 5 => 56
  | 6 => 68
  | 7 => 80
  | 8 => 100
  | 9 => 250
  | 10 => 500
  | 11 => 800
  | 12 => 1000
  | 13 => 3000
  | 14 => 5000
  | _ => 8000

/-- The table of R209. -/
def decayTable (cnt : Byte) : Nat :=
  let c := cnt.toNat
  if 94 ≤ c then 1
  else if 55 ≤ c then 2
  else if 27 ≤ c then 4
  else if 15 ≤ c then 8
  else if 7 ≤ c then 16
  else if 1 ≤ c then 30
  else 1

/-- `DecayMult(cnt)` (R209) of the instance; an instance's values are at least 1 (U44). -/
def decayMult (i : DecayInstance) (cnt : Byte) : Nat :=
  match i with
  | .table => decayTable cnt
  | .other n => if 1 ≤ Config.decayOther n cnt then Config.decayOther n cnt else 1

/-- The frequency table in millihertz, keys 0 to 63 (R290). -/
def ftabLow : List Nat :=
  [8176, 8662, 9177, 9723, 10301, 10913, 11562, 12250,
   12978, 13750, 14568, 15434, 16352, 17324, 18354, 19445,
   20602, 21827, 23125, 24500, 25957, 27500, 29135, 30868,
   32703, 34648, 36708, 38891, 41203, 43654, 46249, 48999,
   51913, 55000, 58270, 61735, 65406, 69296, 73416, 77782,
   82407, 87307, 92499, 97999, 103826, 110000, 116541, 123471,
   130813, 138591, 146832, 155563, 164814, 174614, 184997, 195998,
   207652, 220000, 233082, 246942, 261626, 277183, 293665, 311127]

/-- The frequency table in millihertz, keys 64 to 127 (R290). -/
def ftabHigh : List Nat :=
  [329628, 349228, 369994, 391995, 415305, 440000, 466164, 493883,
   523251, 554365, 587330, 622254, 659255, 698456, 739989, 783991,
   830609, 880000, 932328, 987767, 1046502, 1108731, 1174659, 1244508,
   1318510, 1396913, 1479978, 1567982, 1661219, 1760000, 1864655, 1975533,
   2093005, 2217461, 2349318, 2489016, 2637020, 2793826, 2959955, 3135963,
   3322438, 3520000, 3729310, 3951066, 4186009, 4434922, 4698636, 4978032,
   5274041, 5587652, 5919911, 6271927, 6644875, 7040000, 7458620, 7902133,
   8372018, 8869844, 9397273, 9956063, 10548082, 11175303, 11839822, 12543854]

/-- `FTAB_mHz[k]` (R290). -/
def ftabMHz (k : Key) : Nat :=
  if k.toNat < 64 then ftabLow.getD k.toNat 0 else ftabHigh.getD (k.toNat - 64) 0

/-- A frequency in millihertz as a `freq16` value at clock `clk`, rounded half up and saturated (R291). -/
def freqOfMHz (mHz clk : Nat) : BitVec 16 :=
  BitVec.ofNat 16 (min 65535 ((2 * mHz * 2 ^ 24 + 1000 * clk) / (2000 * clk)))

/-- `B(k)` at clock `clk` (R291). -/
def keyFreq (k : Key) (clk : BitVec 24) : BitVec 16 := freqOfMHz (ftabMHz k) clk.toNat

/-- `F440` at clock `clk` (R50). -/
def f440 (clk : BitVec 24) : BitVec 16 :=
  BitVec.ofNat 16 (min 65535 ((2 * 440 * 2 ^ 24 + clk.toNat) / (2 * clk.toNat)))

/-- `SEMI[t]` for `t = 0..11` (R292). -/
def semiOctave (r : Nat) : Nat :=
  match r with
  | 0 => 0x3F800000
  | 1 => 0x3F879C7D
  | 2 => 0x3F8FACD6
  | 3 => 0x3F9837F0
  | 4 => 0x3FA14518
  | 5 => 0x3FAADC08
  | 6 => 0x3FB504F3
  | 7 => 0x3FBFC887
  | 8 => 0x3FCB2FF5
  | 9 => 0x3FD744FD
  | 10 => 0x3FE411F0
  | _ => 0x3FF1A1BF

/-- `SEMI[t]` (R292): an octave changes only the exponent. For `t` outside -24..24, which no run reaches, the same rule
(DEDUCED, log entry 16). -/
def semi (t : BitVec 8) : F32 :=
  BitVec.ofInt 32 ((semiOctave (t.toInt % 12).toNat : Int) + t.toInt / 12 * 2 ^ 23)

/-- `a^n * 2^(k*n) ≤ m * 2^e`, on integers. -/
def powLe (a : Nat) (k : Int) (n m : Nat) (e : Int) : Bool :=
  match k * n - e with
  | .ofNat s => decide (a ^ n * 2 ^ s ≤ m)
  | .negSucc s => decide (a ^ n ≤ m * 2 ^ (s + 1))

/-- The largest `q` that agrees with `q0` above bit `i` and has `(q * 2^k)^n ≤ m * 2^e`, by bisection on bits. -/
def rootBits (k : Int) (n m : Nat) (e : Int) : Nat → Nat → Nat
  | 0, q0 => q0
  | i + 1, q0 => rootBits k n m e i (if powLe (q0 + 2 ^ i) k n m e then q0 + 2 ^ i else q0)

/-- The binary32 nearest to the real `(m * 2^e)^(1/n)` for `m` positive and `2 ≤ n`, ties to even. -/
def rootRounded (n m : Nat) (e : Int) : F32 :=
  let k : Int := (e + (m.log2 : Int)) / n - 23
  let q := rootBits k n m e 23 (2 ^ 23)
  let up :=
    if powLe (2 * q + 1) (k - 1) n m e then
      !((2 * q + 1) ^ n * 2 ^ ((k - 1) * n - e).toNat == m * 2 ^ (e - (k - 1) * n).toNat) || q % 2 == 1
    else false
  BitVec.ofNat 32 ((k + 149).toNat * 2 ^ 23 + (if up then q + 1 else q))

/-- The reference instance of `GlideMul` (R296): the binary32 nearest to `r^(1/n)`. -/
def glideReference (r : F32) (n : Nat) : F32 :=
  match unpack r with
  | .fin false m e => if m = 0 then Config.glideUndefined r n else if n ≤ 1 then r else rootRounded n m e
  | _ => Config.glideUndefined r n

/-- The contract of R296 between a ratio and the multiplier: finite and positive, not below 1 for a ratio not below 1,
not above 1 for a ratio not above 1. -/
def glideContract (r x : F32) : Bool :=
  isFinite x && flt fPos0 x && (!(fle f1 r) || fle f1 x) && (!(fle r f1) || fle x f1)

/-- `GlideMul(r, n)` (R296) of the instance. An instance other than the reference one meets the contract: where the
opaque function does not, 1.0, which always does (log entry 6). Off the precondition `r > 0`, a free value (log entry 7). -/
def glideMul (i : GlideInstance) (r : F32) (n : Nat) : F32 :=
  match i with
  | .reference => glideReference r n
  | .other k =>
    if isFinite r && flt fPos0 r then
      if glideContract r (Config.glideOther k r n) then Config.glideOther k r n else f1
    else Config.glideUndefined r n

end Sys2Proof.Machine
end

