-- ==== Sys2Proof/Machine/Registers.lean ====
section
/-! DEFINITION. The register names and addresses of a chip (R13, R23), and the order of the voices (R13). -/

namespace Sys2Proof.Machine

open Sys2Proof

/-- The seven registers of a voice (R23). -/
inductive VReg where
  | freqLo
  | freqHi
  | pwLo
  | pwHi
  | ctrl
  | ad
  | sr
  deriving DecidableEq, Repr

/-- The 30 addressable registers (R23). -/
inductive Reg where
  | voice (v : VoiceId) (r : VReg)
  | fcLo
  | fcHi
  | resFilt
  | modeVol
  | rsv19
  | rsv1A
  | osc3
  | env3
  | control
  deriving DecidableEq, Repr

/-- `prev(v)` (R13): the voice before `v` in the cycle 1, 2, 3. -/
def prevVoice : VoiceId → VoiceId
  | .v1 => .v3
  | .v2 => .v1
  | .v3 => .v2

/-- `base(v)` (R13). -/
def voiceBase : VoiceId → Nat
  | .v1 => 0
  | .v2 => 7
  | .v3 => 14

/-- The place of a register among the seven of its voice (R23). -/
def VReg.offset : VReg → Nat
  | .freqLo => 0
  | .freqHi => 1
  | .pwLo => 2
  | .pwHi => 3
  | .ctrl => 4
  | .ad => 5
  | .sr => 6

/-- The address of a register (R23). -/
def Reg.addr : Reg → Nat
  | .voice v r => voiceBase v + r.offset
  | .fcLo => 0x15
  | .fcHi => 0x16
  | .resFilt => 0x17
  | .modeVol => 0x18
  | .rsv19 => 0x19
  | .rsv1A => 0x1A
  | .osc3 => 0x1B
  | .env3 => 0x1C
  | .control => 0x1D

/-- Every addressable register lies in the bank of 32 (R22). -/
theorem Reg.addr_lt (r : Reg) : r.addr < 32 := by
  cases r with
  | voice v r => cases v <;> cases r <;> decide
  | _ => decide

/-- The voice register at an offset below 7; offsets from 6 up give the last. -/
def vregOfOffset (n : Nat) : VReg :=
  match n with
  | 0 => .freqLo
  | 1 => .freqHi
  | 2 => .pwLo
  | 3 => .pwHi
  | 4 => .ctrl
  | 5 => .ad
  | _ => .sr

/-- The register at an address (R23); none from `0x1E` up (R69). -/
def regOfAddr (a : Nat) : Option Reg :=
  if a < 7 then some (.voice .v1 (vregOfOffset a))
  else if a < 14 then some (.voice .v2 (vregOfOffset (a - 7)))
  else if a < 21 then some (.voice .v3 (vregOfOffset (a - 14)))
  else match a with
    | 0x15 => some .fcLo
    | 0x16 => some .fcHi
    | 0x17 => some .resFilt
    | 0x18 => some .modeVol
    | 0x19 => some .rsv19
    | 0x1A => some .rsv1A
    | 0x1B => some .osc3
    | 0x1C => some .env3
    | 0x1D => some .control
    | _ => none

end Sys2Proof.Machine
end

