-- ==== Sys2Proof/Machine/Chip.lean ====
section
/-! DEFINITION. The state of one chip (`10_state.md` sections 2 to 4) and its reset values (R50, R148, R151). -/

namespace Sys2Proof.Machine

open Sys2Proof

/-- Envelope states (R19, R33). -/
inductive EnvState where
  | attack
  | decay
  | sustain
  | release
  deriving DecidableEq, Repr

/-- The 2-bit encoding of R33. -/
def EnvState.code : EnvState → BitVec 2
  | .attack => 0#2
  | .decay => 1#2
  | .sustain => 2#2
  | .release => 3#2

/-- Per-voice state of a chip (R25, R27, R32, R34). -/
structure Voice where
  /-- Primary phase accumulator. -/
  phase : BitVec 24
  /-- Detuned accumulator of the pulse waveform, `phase_p`. -/
  phaseP : BitVec 24
  /-- Detuned accumulator of the triangle waveform, `phase_t`. -/
  phaseT : BitVec 24
  /-- The last advance of `phase` carried out of bit 23. -/
  wrap : Bool
  /-- Combined waveform of this tick, s15. -/
  centre : BitVec 15
  /-- `centre` at the end of the previous tick, s15. -/
  held : BitVec 15
  /-- `centre * cnt`, s23. -/
  d : BitVec 23
  /-- Envelope state. -/
  est : EnvState
  /-- Envelope counter. -/
  cnt : BitVec 8
  /-- Attack hold counter. -/
  hc : BitVec 16
  /-- Sub-counter of decay and release. -/
  sub : BitVec 32
  /-- Shift/xor noise accumulator. -/
  n1 : BitVec 24
  /-- Additive noise accumulator. -/
  n2 : BitVec 24
  /-- Last sampled noise value. -/
  nout : BitVec 12
  deriving DecidableEq, Repr

/-- The seven analogue parameters (R29). -/
structure AnalogParams where
  gain : F32
  detune : BitVec 16
  leak : F32
  snr : F32
  dcbias : F32
  polemix : F32
  clkHz : BitVec 24
  deriving DecidableEq, Repr

/-- The five filter accumulators `s[0..4]` (R30). -/
structure FilterState where
  s0 : F32
  s1 : F32
  s2 : F32
  s3 : F32
  s4 : F32
  deriving DecidableEq, Repr

/-- One ChipCore with its AnalogFilter (R20 to R36). -/
structure Chip where
  /-- `reg[0..31]` (R22). -/
  regs : Vector Byte 32
  voices : PerVoice Voice
  params : AnalogParams
  filter : FilterState
  /-- The result of the last ADVANCE (R31). -/
  sample : F32
  deriving DecidableEq, Repr

/-- The seed of `n1` (R223). -/
def noiseSeed : VoiceId → BitVec 24
  | .v1 => 0x7FFFF8#24
  | .v2 => 0x3FFFFC#24
  | .v3 => 0x1FFFFE#24

/-- A voice after chip reset (R50, R148 steps 2 and 3). -/
def voiceReset (v : VoiceId) : Voice :=
  { phase := 0#24, phaseP := 0#24, phaseT := 0#24, wrap := false, centre := 0#15, held := 0#15, d := 0#23,
    est := .release, cnt := 0#8, hc := 0#16, sub := 0#32, n1 := noiseSeed v, n2 := 0#24, nout := 0#12 }

/-- The filter accumulators after chip reset (R148 step 4). -/
def filterReset : FilterState :=
  { s0 := fPos0, s1 := fPos0, s2 := fPos0, s3 := fPos0, s4 := fPos0 }

/-- The register bank after chip reset at clock `clk`, `CONTROL` as CREATE leaves it (R50, R148 step 1). -/
def regsReset (clk : BitVec 24) : Vector Byte 32 :=
  let lo : Byte := (f440 clk).extractLsb' 0 8
  let hi : Byte := (f440 clk).extractLsb' 8 8
  #v[lo, hi, 0x00#8, 0x08#8, 0x00#8, 0x00#8, 0x00#8,
     lo, hi, 0x00#8, 0x08#8, 0x00#8, 0x00#8, 0x00#8,
     lo, hi, 0x00#8, 0x08#8, 0x00#8, 0x00#8, 0x00#8,
     0x00#8, 0x00#8, 0x00#8, 0x00#8, 0x00#8, 0x00#8, 0x00#8, 0x00#8, 0x00#8, 0x00#8, 0x00#8]

/-- The analogue parameters at CREATE (R29, R151). -/
def paramsCreated : AnalogParams :=
  { gain := f1, detune := 0#16, leak := fPos0, snr := fPos0, dcbias := fPos0, polemix := fPos0, clkHz := clkHzDefault }

/-- A chip after `ChipReset` (R148): everything but the analogue parameters takes its reset value. -/
def chipResetWith (p : AnalogParams) : Chip :=
  { regs := regsReset p.clkHz
    voices := { v1 := voiceReset .v1, v2 := voiceReset .v2, v3 := voiceReset .v3 }
    params := p
    filter := filterReset
    sample := fPos0 }

/-- A chip as CREATE leaves it (R151, R362). -/
def chipCreated : Chip := chipResetWith paramsCreated

end Sys2Proof.Machine
end

