-- ==== Sys2Proof/Machine/Manager.lean ====
section
/-! DEFINITION. The state of the VoiceManager (`10_state.md` section 5) and its values after engine reset (R51). -/

namespace Sys2Proof.Machine

open Sys2Proof

/-- The five key modes (R19, R45). -/
inductive KeyMode where
  | mono
  | poly1
  | poly2
  | poly3
  | poly4
  deriving DecidableEq, Repr

/-- The 3-bit encoding of R45. -/
def KeyMode.code : KeyMode → BitVec 3
  | .mono => 0#3
  | .poly1 => 1#3
  | .poly2 => 2#3
  | .poly3 => 3#3
  | .poly4 => 4#3

/-- The key mode of a controller value, `min(val14, 4)` (R283). -/
def keyModeOfVal (val : BitVec 14) : KeyMode :=
  match val.toNat with
  | 0 => .mono
  | 1 => .poly1
  | 2 => .poly2
  | 3 => .poly3
  | _ => .poly4

/-- Per-voice policy state (R42). `vkey` is `none` for `NONE`. -/
structure PolicyVoice where
  vkey : Option Key
  vvel : Velocity
  tune : F32
  transpose : BitVec 8
  glideN : BitVec 32
  fcur : F32
  ftgt : F32
  gmul : F32
  gleft : BitVec 32
  pwBase : BitVec 12
  actrl : Byte
  deriving DecidableEq, Repr

/-- The VoiceManager (R40 to R45). -/
structure VoiceManager where
  keymap : Vector Bool 128
  keyvel : Vector Velocity 128
  known : Vector Bool 128
  lastvel : Velocity
  voices : PerVoice PolicyVoice
  routes : BitVec 17
  depthPw : F32
  depthF : F32
  depthFc : F32
  touch : F32
  pitch : F32
  fcBase : BitVec 11
  /-- `arp[0 .. ARP_CAP-1]`: the length is `ARP_CAP`. -/
  arp : List Key
  arpLen : Nat
  arpIdx : Nat
  arpKey : Option Key
  arpCnt : BitVec 32
  arpRate : BitVec 32
  arpRetrig : Bool
  arpScan : Bool
  arpPending : Bool
  split : Key
  keymode : KeyMode
  deriving DecidableEq, Repr

/-- `NONE = 0xFF` (R42): the byte a key-or-none is. -/
def keyCode : Option Key → Byte
  | some k => k.setWidth 8
  | none => 0xFF#8

/-- Per-voice policy state after engine reset (R51). -/
def policyVoiceReset : PolicyVoice :=
  { vkey := none, vvel := 0#7, tune := f1, transpose := 0#8, glideN := 0#32
    fcur := i2f (keyFreq 69#7 clkHzDefault).toNat, ftgt := i2f (keyFreq 69#7 clkHzDefault).toNat
    gmul := f1, gleft := 0#32, pwBase := 0x800#12, actrl := 0x00#8 }

/-- The VoiceManager after engine reset (R51), for an arpeggiator capacity. -/
def vmReset (c : Cfg) (arpCap : Nat) : VoiceManager :=
  { keymap := Vector.replicate 128 false
    keyvel := Vector.replicate 128 0#7
    known := Vector.replicate 128 false
    lastvel := 0#7
    voices := { v1 := policyVoiceReset, v2 := policyVoiceReset, v3 := policyVoiceReset }
    routes := 0#17
    depthPw := fPos0, depthF := fPos0, depthFc := fPos0, touch := fPos0, pitch := fPos0
    fcBase := 0#11
    arp := List.replicate arpCap 0#7
    arpLen := 0, arpIdx := 0, arpKey := none, arpCnt := 0#32
    arpRate := BitVec.ofNat 32 c.blockSize
    arpRetrig := true, arpScan := false, arpPending := false
    split := 60#7
    keymode := .poly1 }

end Sys2Proof.Machine
end

