-- ==== Sys2Proof/Machine/State.lean ====
section
/-! DEFINITION. The state of the sound core (R20), the responses, and the state after engine reset (R362). -/

namespace Sys2Proof.Machine

open Sys2Proof

/-- The failure codes (R331). A code is a label: no state depends on it and the caller does not see it. -/
inductive FailCode where
  | badCmd
  | badHandle
  | badAddr
  | badCtrl
  | poolFull
  deriving DecidableEq, Repr

/-- A response (R84): a value on success, a sentinel on failure. -/
inductive Response where
  | ok (value : BitVec 32)
  | fail (code : FailCode) (value : BitVec 32)
  deriving DecidableEq, Repr

/-- The 33 bits the caller sees (R84): `err` in bit 32, `value` in bits 31:0. -/
def Response.bits : Response → BitVec 33
  | .ok v => 0#1 ++ v
  | .fail _ v => 1#1 ++ v

/-- What stops the machine with a fault: nothing. R330, R342: no exceptions are used, no condition is fatal, every
failing command is answered by a response. The type has no value. -/
inductive Fault where
  deriving DecidableEq, Repr

/-- What the model refuses. -/
inductive Refusal where
  /-- Raised by an arm of `exec` whose instruction has no meaning yet; safe: the machine stops. No arm raises it. -/
  | notModelled (mnemonic : String)
  deriving DecidableEq, Repr

/-- The two contexts that issue commands (R71, R349). -/
inductive Context where
  /-- The separate control context (MIDI, panel). -/
  | control
  /-- The render path. -/
  | render
  deriving DecidableEq, Repr

/-- A move of one of the agents of R71. -/
inductive Move where
  /-- A context hands the next command word it has issued to the shared command port. -/
  | arrive (c : Context)
  /-- The core performs the first command word of the port. -/
  | perform
  deriving DecidableEq, Repr

/-- The agents outside the core (R71): what each context has issued and the port has not yet accepted, oldest first,
and the interleaving: which agent moves next. With no move listed the core moves (log entry 13). -/
structure Agents where
  control : List CmdWord
  render : List CmdWord
  moves : List Move
  deriving DecidableEq, Repr

/-- The state of the sound core (R20), with four fields of the model's own: `cfg`, `agents`, `port` and `rsp`. -/
structure State where
  /-- The instantiation parameters (R10, R47); no command changes them (log entry 3). -/
  cfg : Cfg
  /-- The chip pool (R21); a dead slot holds nothing. The length is `POOL_SIZE` (log entry 4). -/
  pool : List (Option Chip)
  /-- The VoiceManager (R40). -/
  vm : VoiceManager
  /-- The two contexts and the interleaving of their commands (R71; log entry 13). -/
  agents : Agents
  /-- Command words accepted at the interface and not yet performed, in arrival order (R70, R71; log entry 1). -/
  port : List CmdWord
  /-- The responses of the last command (R84); nothing reads them (log entry 2). -/
  rsp : List Response
  deriving DecidableEq, Repr

/-- Engine reset (R362) of an instantiation with `poolSize` slots and arpeggiator capacity `arpCap`: chips 0 and 1 as
CREATE leaves them, the other slots dead, the VoiceManager at R51. -/
def State.resetWith (c : Cfg) (poolSize arpCap : Nat) : State :=
  { cfg := c
    pool := some chipCreated :: some chipCreated :: List.replicate (poolSize - 2) none
    vm := vmReset c arpCap
    agents := { control := [], render := [], moves := [] }
    port := []
    rsp := [] }

/-- Engine reset (R362) of the instantiation of the spec's examples: `POOL_SIZE` 4, `ARP_CAP` 16, `SAMPLE_RATE` 44100,
`BLOCK_SIZE` 256. DESIGN CHOICE, unsafe (log entries 3 and 4): the spec leaves the four open. -/
def State.reset : State := State.resetWith Cfg.example 4 16

end Sys2Proof.Machine
end

