-- ==== Sys2Proof/Machine/Ops.lean ====
section
/-! DEFINITION. The named operations: reading and writing registers, the effect of a register write (R110), chip reset
(R148), finding a chip by its handle (R332), answering a command (R84), and failing one (R331, R335), which on this
hardware stands in the place of taking an exception. There is no return from an exception: R343. -/

namespace Sys2Proof.Machine

open Sys2Proof

/-- `x[r]`: the byte of a register (R12). -/
def Chip.reg (c : Chip) (r : Reg) : Byte := c.regs[r.addr]'(r.addr_lt)

/-- `x[r] <- d` (R12): one byte stored, nothing else. -/
def Chip.setReg (c : Chip) (r : Reg) (d : Byte) : Chip :=
  { c with regs := c.regs.set r.addr d r.addr_lt }

/-- `ChipReset` (R148): the analogue parameters are kept, everything else of the chip takes its reset value. -/
def chipReset (c : Chip) : Chip := chipResetWith c.params

/-- The effect of a CONTROL write (R147). -/
def writeControl (c : Chip) (d : Byte) : Chip :=
  if d.msb then (chipReset c).setReg .control (d &&& 0x7F#8) else c.setReg .control d

/-- The effect of a register write (R110): the byte is stored, but a tap discards it (R139, R140) and CONTROL acts
(R147). -/
def chipWrite (c : Chip) (r : Reg) (d : Byte) : Chip :=
  match r with
  | .osc3 => c
  | .env3 => c
  | .control => writeControl c d
  | .voice v r => c.setReg (.voice v r) d
  | .fcLo => c.setReg .fcLo d
  | .fcHi => c.setReg .fcHi d
  | .resFilt => c.setReg .resFilt d
  | .modeVol => c.setReg .modeVol d
  | .rsv19 => c.setReg .rsv19 d
  | .rsv1A => c.setReg .rsv1A d

/-- `POOL_SIZE` (R21). -/
def State.poolSize (s : State) : Nat := s.pool.length

/-- The chip in slot `n`, if the slot exists and is live (R21). -/
def State.chip (s : State) (n : Nat) : Option Chip := (s.pool[n]?).join

/-- The slot a raw handle field names (R87, R332): `sext_8`, none for a negative handle. -/
def handleSlot (h : Byte) : Option Nat := if h.toInt < 0 then none else some h.toNat

/-- The handle check (R332): the slot and its chip when the handle is valid. -/
def State.lookup (s : State) (h : Byte) : Option (Nat × Chip) :=
  match handleSlot h with
  | none => none
  | some n =>
    match s.chip n with
    | none => none
    | some c => some (n, c)

/-- Slot `n` holds chip `c`. -/
def State.setChip (s : State) (n : Nat) (c : Chip) : State := { s with pool := s.pool.set n (some c) }

/-- Slot `n` is dead (R152). -/
def State.killChip (s : State) (n : Nat) : State := { s with pool := s.pool.set n none }

/-- The least dead slot (R151); none when every slot is live. -/
def leastDead : List (Option Chip) → Option Nat
  | [] => none
  | none :: _ => some 0
  | some _ :: rest => (leastDead rest).map (· + 1)

/-- The responses of this command. -/
def State.withRsp (s : State) (r : List Response) : State := { s with rsp := r }

/-- A command completes with one success response (R84). -/
def answer (s : State) (value : BitVec 32) : Host.Outcome State Fault Refusal :=
  .next (s.withRsp [.ok value])

/-- The sentinel of a class (R84, R335). -/
def sentinel : CmdClass → BitVec 32
  | .wr => 0xFFFFFFFF#32
  | .io => 0xBF800000#32
  | .ev => 0xFFFFFFFF#32
  | .clk => 0xBF800000#32
  | .reserved => 0xFFFFFFFF#32

/-- `raise Fail(code)` (R12, R335): one failure response with the sentinel of the class, no other change. -/
def failWith (s : State) (cls : CmdClass) (code : FailCode) : Host.Outcome State Fault Refusal :=
  .next (s.withRsp [.fail code (sentinel cls)])

/-- The pair check (R263): chips 0 and 1 when both are live. -/
def State.pair (s : State) : Option (Chip × Chip) :=
  match s.chip 0, s.chip 1 with
  | some a, some m => some (a, m)
  | _, _ => none

/-- A WR command (R110): the exchange of one byte. -/
def wrCommand (r : Reg) (h d : Byte) (s : State) : Host.Outcome State Fault Refusal :=
  match s.lookup h with
  | none => failWith s .wr .badHandle
  | some (n, c) => answer (s.setChip n (chipWrite c r d)) ((c.reg r).setWidth 32)

/-- An IO command on a valid handle (R150): `f` gives the chip after the effect and the result. -/
def ioCommand (f : Chip → Chip × F32) (h : Byte) (s : State) : Host.Outcome State Fault Refusal :=
  match s.lookup h with
  | none => failWith s .io .badHandle
  | some (n, c) => answer (s.setChip n (f c).1) (f c).2

/-- A word that is none of the 44 commands (R81, R100, R340): the handle of a WR is checked before its address. -/
def rejectWord (e : DecodeError) (s : State) : Host.Outcome State Fault Refusal :=
  match e with
  | .badCmd cls => failWith s cls .badCmd
  | .badAddr h =>
    match s.lookup h with
    | none => failWith s .wr .badHandle
    | some _ => failWith s .wr .badAddr

end Sys2Proof.Machine
end

