-- ==== Sys2Proof/Machine/Flags.lean ====
section
/-! DEFINITION. The flags: bits of the voice control registers (R26, R90), of `RES_FILT` and `MODE_VOL` (R94, R95) and
of `CONTROL` (R36, R97). They have no storage but those registers. -/

namespace Sys2Proof.Machine

open Sys2Proof

/-- A bit of a register. -/
def Chip.bit (c : Chip) (r : Reg) (i : Nat) : Bool := (c.reg r).getLsbD i

/-- Noise waveform selected (R90). -/
def flagNoise (c : Chip) (v : VoiceId) : Bool := c.bit (.voice v .ctrl) 7
/-- Pulse waveform selected (R90). -/
def flagPulse (c : Chip) (v : VoiceId) : Bool := c.bit (.voice v .ctrl) 6
/-- Ramp waveform selected (R90). -/
def flagRamp (c : Chip) (v : VoiceId) : Bool := c.bit (.voice v .ctrl) 5
/-- Triangle waveform selected (R90). -/
def flagTri (c : Chip) (v : VoiceId) : Bool := c.bit (.voice v .ctrl) 4
/-- Oscillator held in its idle state (R90, R173). -/
def flagTest (c : Chip) (v : VoiceId) : Bool := c.bit (.voice v .ctrl) 3
/-- Ring modulation by the previous voice (R90). -/
def flagRing (c : Chip) (v : VoiceId) : Bool := c.bit (.voice v .ctrl) 2
/-- Hard sync to the previous voice (R90). -/
def flagSync (c : Chip) (v : VoiceId) : Bool := c.bit (.voice v .ctrl) 1
/-- Envelope gated (R90). -/
def flagGate (c : Chip) (v : VoiceId) : Bool := c.bit (.voice v .ctrl) 0

/-- `filt[v]` (R94): the voice is routed into the filter. -/
def flagFilt (c : Chip) : VoiceId → Bool
  | .v1 => c.bit .resFilt 0
  | .v2 => c.bit .resFilt 1
  | .v3 => c.bit .resFilt 2

/-- `v3off` (R95). -/
def flagV3off (c : Chip) : Bool := c.bit .modeVol 7
/-- `hp` (R95). -/
def flagHp (c : Chip) : Bool := c.bit .modeVol 6
/-- `bp` (R95). -/
def flagBp (c : Chip) : Bool := c.bit .modeVol 5
/-- `lp` (R95). -/
def flagLp (c : Chip) : Bool := c.bit .modeVol 4

/-- `ladder` (R97). -/
def flagLadder (c : Chip) : Bool := c.bit .control 6
/-- `multi` (R97). -/
def flagMulti (c : Chip) : Bool := c.bit .control 5
/-- `debug` (R97): stored, read by no rule (R36, R350). -/
def flagDebug (c : Chip) : Bool := c.bit .control 4

end Sys2Proof.Machine
end

