-- ==== Sys2Proof/Machine/Operands.lean ====
section
/-! DEFINITION. The decoded numeric fields of the registers (R24), each computed at every use, and the conditioning of
an IO parameter (R162). -/

namespace Sys2Proof.Machine

open Sys2Proof

/-- `freq16[v]` (R24, R62). -/
def freq16 (c : Chip) (v : VoiceId) : BitVec 16 := c.reg (.voice v .freqHi) ++ c.reg (.voice v .freqLo)

/-- `pw12[v]` (R24, R62): bits 7:4 of the high register are ignored. -/
def pw12 (c : Chip) (v : VoiceId) : BitVec 12 :=
  (c.reg (.voice v .pwHi)).extractLsb' 0 4 ++ c.reg (.voice v .pwLo)

/-- `inc[v]` (R171). -/
def inc (k : Cfg) (c : Chip) (v : VoiceId) : BitVec 24 :=
  BitVec.ofNat 24 ((freq16 c v).toNat * c.params.clkHz.toNat / k.sampleRate)

/-- `dt[v]` (R172). -/
def dt (k : Cfg) (c : Chip) (v : VoiceId) : BitVec 24 :=
  BitVec.ofNat 24 ((inc k c v).toNat * c.params.detune.toNat / 65536)

/-- `atk[v]` (R91). -/
def atk (c : Chip) (v : VoiceId) : BitVec 4 := (c.reg (.voice v .ad)).extractLsb' 4 4
/-- `dcy[v]` (R91). -/
def dcy (c : Chip) (v : VoiceId) : BitVec 4 := (c.reg (.voice v .ad)).extractLsb' 0 4
/-- `sus[v]` (R92). -/
def sus (c : Chip) (v : VoiceId) : BitVec 4 := (c.reg (.voice v .sr)).extractLsb' 4 4
/-- `rel[v]` (R92). -/
def rel (c : Chip) (v : VoiceId) : BitVec 4 := (c.reg (.voice v .sr)).extractLsb' 0 4

/-- A (hold, step) pair (R202). -/
structure RatePair where
  hold : Nat
  step : Nat
  deriving DecidableEq, Repr

/-- `Pair(c)` (R203). -/
def ratePair (k : Cfg) (code : BitVec 4) : RatePair :=
  let num := rateMs code * k.sampleRate
  if 255000 ≤ num then { hold := (2 * num + 255000) / 510000, step := 1 }
  else { hold := 1, step := (255000 + num - 1) / num }

/-- `suslevel[v]` (R204). -/
def suslevel (c : Chip) (v : VoiceId) : Byte := BitVec.ofNat 8 ((sus c v).toNat * 17)

/-- `fc11` (R24, R93): bits 7:3 of `FC_LO` are ignored. -/
def fc11 (c : Chip) : BitVec 11 := c.reg .fcHi ++ (c.reg .fcLo).extractLsb' 0 3

/-- `cutoff` (R236). -/
def cutoff (c : Chip) : F32 := fdiv (i2f (fc11 c).toNat) f2048

/-- `res4` (R94). -/
def res4 (c : Chip) : BitVec 4 := (c.reg .resFilt).extractLsb' 4 4
/-- `vol4` (R95). -/
def vol4 (c : Chip) : BitVec 4 := (c.reg .modeVol).extractLsb' 0 4

/-- `clampf(p, lo, hi)` (R162): a NaN goes to the lower bound. -/
def clampf (p lo hi : F32) : F32 :=
  if !flt lo p then lo else if flt hi p then hi else p

end Sys2Proof.Machine
end

