-- ==== Sys2Proof/Machine/Noise.lean ====
section
/-! DEFINITION. Step T1 of the tick: the noise generators (R221). -/

namespace Sys2Proof.Machine

open Sys2Proof

/-- The feedback bit of `n1` (R221). -/
def noiseFeedback (n1 : BitVec 24) : Bool :=
  n1.getLsbD 23 ^^ n1.getLsbD 22 ^^ n1.getLsbD 21 ^^ n1.getLsbD 16

/-- The next `n1` (R221): shifted left, the feedback bit in bit 0. -/
def noiseShift (n1 : BitVec 24) : BitVec 24 :=
  n1.extractLsb' 0 23 ++ BitVec.ofBool (noiseFeedback n1)

/-- T1 for one voice (R221), whatever its flags are. -/
def noiseStep (o : Voice) : Voice :=
  let n1 := noiseShift o.n1
  let n2 := o.n2 + n1
  { o with n1 := n1, n2 := n2, nout := (n1 ^^^ n2).extractLsb' 12 12 }

/-- T1: the three noise generators advance (R170, R221). -/
def tickNoise (c : Chip) : Chip :=
  { c with voices := c.voices.mapVoice fun _ o => noiseStep o }

end Sys2Proof.Machine
end

