-- ==== Sys2Proof/Machine/Oscillator.lean ====
section
/-! DEFINITION. Steps T2, T3, T4, T6 and T8 of the tick: phase, sync, waveforms, digital output, taps and held sample
(`42_oscillator.md`). -/

namespace Sys2Proof.Machine

open Sys2Proof

/-- T2 for one voice held by `test` (R173). -/
def oscIdle (o : Voice) : Voice :=
  { o with phase := 0#24, phaseP := 0#24, phaseT := 0#24, wrap := false }

/-- T2 for one voice not held by `test` (R175, R176): `wrap` is the carry out of bit 23. -/
def oscAdvance (inc dt : BitVec 24) (o : Voice) : Voice :=
  { o with
    phase := BitVec.ofNat 24 (o.phase.toNat + inc.toNat)
    wrap := decide (2 ^ 24 ≤ o.phase.toNat + inc.toNat)
    phaseP := o.phaseP + inc + dt
    phaseT := o.phaseT + inc - dt }

/-- T2 (R170, R173, R175). -/
def tickPhase (k : Cfg) (c : Chip) : Chip :=
  { c with voices := c.voices.mapVoice fun v o =>
      if flagTest c v then oscIdle o else oscAdvance (inc k c v) (dt k c v) o }

/-- A voice reset by sync (R174): `wrap` is not changed. -/
def oscSync (o : Voice) : Voice := { o with phase := 0#24, phaseP := 0#24, phaseT := 0#24 }

/-- T3 (R174): it reads the `wrap` of T2, which it does not change. -/
def tickSync (c : Chip) : Chip :=
  { c with voices := c.voices.mapVoice fun v o =>
      if flagSync c v && (c.voices.get (prevVoice v)).wrap then oscSync o else o }

/-- The ramp of an accumulator (R177). -/
def ramp12 (p : BitVec 24) : BitVec 12 := p.extractLsb' 12 12

/-- The pulse of an accumulator (R178). -/
def pulse12 (p : BitVec 24) (pw : BitVec 12) : BitVec 12 :=
  if pw.toNat ≤ (ramp12 p).toNat then 0xFFF#12 else 0x000#12

/-- The triangle of an accumulator with its fold bit (R179). -/
def tri12 (p : BitVec 24) (fold : Bool) : BitVec 12 :=
  p.extractLsb' 11 12 ^^^ (if fold then 0xFFF#12 else 0x000#12)

/-- The fold bit in AND mixing (R179): ring modulation XORs in the previous voice's sign bit of this tick. -/
def foldAnd (c : Chip) (v : VoiceId) : Bool :=
  (c.voices.get v).phase.getLsbD 23
    ^^ (flagRing c v && (c.voices.get (prevVoice v)).phase.getLsbD 23)

/-- No waveform is selected (R181). -/
def noWaveform (c : Chip) (v : VoiceId) : Bool :=
  !flagNoise c v && !flagPulse c v && !flagRamp c v && !flagTri c v

/-- The 12 bits `w` if selected, all ones if not: the neutral value of AND mixing. -/
def andTerm (sel : Bool) (w : BitVec 12) : BitVec 12 := if sel then w else 0xFFF#12

/-- The combined 12-bit waveform of AND mixing (R180, R181). -/
def waveAnd (c : Chip) (v : VoiceId) : BitVec 12 :=
  let o := c.voices.get v
  if noWaveform c v then 0x800#12
  else 0xFFF#12 &&& andTerm (flagNoise c v) o.nout
    &&& andTerm (flagPulse c v) (pulse12 o.phase (pw12 c v))
    &&& andTerm (flagRamp c v) (ramp12 o.phase)
    &&& andTerm (flagTri c v) (tri12 o.phase (foldAnd c v))

/-- A waveform centred on 0 if selected, 0 if not: the term of multi mixing (R182). -/
def sumTerm (sel : Bool) (w : BitVec 12) : Int := if sel then (w.toNat : Int) - 2048 else 0

/-- The sum of the selected waveforms in multi mixing (R182). -/
def sumMulti (c : Chip) (v : VoiceId) : Int :=
  let o := c.voices.get v
  sumTerm (flagNoise c v) o.nout
    + sumTerm (flagPulse c v) (pulse12 o.phaseP (pw12 c v))
    + sumTerm (flagRamp c v) (ramp12 o.phase)
    + sumTerm (flagTri c v) (tri12 o.phaseT (o.phaseT.getLsbD 23))

/-- The product of multi-mode ring modulation (R182): floor of the product over 2^11, clamped. -/
def ringProduct (acc held : Int) : Int := clampInt (acc * held / 2048) (-8192) 8191

/-- `centre[v]` as an integer (R180, R182). -/
def centreValue (c : Chip) (v : VoiceId) : Int :=
  if flagMulti c then
    if flagRing c v then ringProduct (sumMulti c v) (c.voices.get (prevVoice v)).held.toInt
    else sumMulti c v
  else ((waveAnd c v).toNat : Int) - 2048

/-- T4 (R170): the waveforms and their combination. -/
def tickWave (c : Chip) : Chip :=
  { c with voices := c.voices.mapVoice fun v o => { o with centre := BitVec.ofInt 15 (centreValue c v) } }

/-- The oscillator-3 tap of a `centre[3]` (R188). -/
def osc3Tap (centre : Int) : Byte := BitVec.ofInt 8 (clampInt (centre + 2048) 0 4095 / 16)

/-- T6 for one voice: `d[v]` (R186). -/
def digitalOut (o : Voice) : Voice := { o with d := BitVec.ofInt 23 (o.centre.toInt * o.cnt.toNat) }

/-- T6 (R186, R188): digital outputs and the two taps. -/
def tickOutput (c : Chip) : Chip :=
  ({ c with voices := c.voices.mapVoice fun _ o => digitalOut o }.setReg .osc3 (osc3Tap c.voices.v3.centre.toInt)).setReg
    .env3 c.voices.v3.cnt

/-- T8 (R187): the held samples. -/
def tickHold (c : Chip) : Chip :=
  { c with voices := c.voices.mapVoice fun _ o => { o with held := o.centre } }

end Sys2Proof.Machine
end

