-- ==== Sys2Proof/Machine/Envelope.lean ====
section
/-! DEFINITION. Step T5 of the tick: the envelope generator (`43_envelope.md`). -/

namespace Sys2Proof.Machine

open Sys2Proof

/-- What the envelope of a voice reads in a tick (R200). -/
structure EnvInput where
  gate : Bool
  attack : RatePair
  decay : RatePair
  release : RatePair
  sustain : Byte
  mult : DecayInstance
  deriving DecidableEq, Repr

/-- The envelope's inputs of voice `v` (R24). -/
def envInput (k : Cfg) (c : Chip) (v : VoiceId) : EnvInput :=
  { gate := flagGate c v
    attack := ratePair k (atk c v)
    decay := ratePair k (dcy c v)
    release := ratePair k (rel c v)
    sustain := suslevel c v
    mult := k.decay }

/-- The gate, sampled once at the start of T5 (R205). -/
def envGate (i : EnvInput) (o : Voice) : Voice :=
  if i.gate && o.est == .release then { o with est := .attack, hc := 0#16 }
  else if !i.gate && o.est != .release then { o with est := .release, sub := 0#32 }
  else o

/-- Attack (R206). -/
def envAttack (i : EnvInput) (o : Voice) : Voice :=
  let hc := o.hc + 1#16
  if i.attack.hold ≤ hc.toNat then
    let cnt := min 255 (o.cnt.toNat + i.attack.step)
    if cnt = 255 then { o with hc := 0#16, cnt := 255#8, est := .decay, sub := 0#32 }
    else { o with hc := 0#16, cnt := BitVec.ofNat 8 cnt }
  else { o with hc := hc }

/-- Decay (R207): `DecayMult` at the counter before the step. -/
def envDecay (i : EnvInput) (o : Voice) : Voice :=
  if o.cnt.toNat ≤ i.sustain.toNat then { o with est := .sustain }
  else
    let sub := o.sub + 1#32
    if i.decay.hold * decayMult i.mult o.cnt ≤ sub.toNat then
      let cnt := max i.sustain.toNat (o.cnt.toNat - i.decay.step)
      if cnt = i.sustain.toNat then { o with sub := 0#32, cnt := i.sustain, est := .sustain }
      else { o with sub := 0#32, cnt := BitVec.ofNat 8 cnt }
    else { o with sub := sub }

/-- Sustain (R208). -/
def envSustain (i : EnvInput) (o : Voice) : Voice :=
  if i.sustain.toNat < o.cnt.toNat then { o with est := .decay, sub := 0#32 } else o

/-- Release (R210): `DecayMult` at the counter before the step. -/
def envRelease (i : EnvInput) (o : Voice) : Voice :=
  if 0 < o.cnt.toNat then
    let sub := o.sub + 1#32
    if i.release.hold * decayMult i.mult o.cnt ≤ sub.toNat then
      { o with sub := 0#32, cnt := BitVec.ofNat 8 (o.cnt.toNat - i.release.step) }
    else { o with sub := sub }
  else o

/-- The rule selected by the envelope state (R211). -/
def envStage (i : EnvInput) (o : Voice) : Voice :=
  match o.est with
  | .attack => envAttack i o
  | .decay => envDecay i o
  | .sustain => envSustain i o
  | .release => envRelease i o

/-- T5 for one voice (R211): the gate, then exactly one stage. -/
def envStep (i : EnvInput) (o : Voice) : Voice := envStage i (envGate i o)

/-- T5 (R170). -/
def tickEnvelope (k : Cfg) (c : Chip) : Chip :=
  { c with voices := c.voices.mapVoice fun v o => envStep (envInput k c v) o }

end Sys2Proof.Machine
end

