-- ==== Sys2Proof/Machine/Filter.lean ====
section
/-! DEFINITION. Step T7 of the tick: the analogue stage (`45_filter.md`), every operation in the order written there. -/

namespace Sys2Proof.Machine

open Sys2Proof

/-- `a[v]` (R232). -/
def analogueValue (c : Chip) (v : VoiceId) : F32 :=
  let o := c.voices.get v
  fmul (fdiv (i2f o.centre.toInt) f2048) (fadd (fdiv (i2f o.cnt.toNat) f255) c.params.leak)

/-- `nz` (R233), from voice 3's noise value of this tick. -/
def noiseFloor (c : Chip) : F32 :=
  fmul (fdiv (i2f ((c.voices.v3.nout.toNat : Int) - 2048)) f2048) c.params.snr

/-- `fin` after voice `v` (R234). -/
def addFiltered (c : Chip) (v : VoiceId) (fin : F32) : F32 :=
  if flagFilt c v then fadd fin (analogueValue c v) else fin

/-- Voice `v` joins the bypass sum (R234): not filtered, and not a voice 3 removed by `v3off`. -/
def bypassed (c : Chip) (v : VoiceId) : Bool := !flagFilt c v && !(v == .v3 && flagV3off c)

/-- `byp` after voice `v` (R234). -/
def addBypass (c : Chip) (v : VoiceId) (byp : F32) : F32 :=
  if bypassed c v then fadd byp (analogueValue c v) else byp

/-- `fin` (R234). -/
def filteredSum (c : Chip) : F32 := addFiltered c .v3 (addFiltered c .v2 (addFiltered c .v1 fPos0))

/-- `byp` (R234). -/
def bypassSum (c : Chip) : F32 := addBypass c .v3 (addBypass c .v2 (addBypass c .v1 fPos0))

/-- `x` (R234). -/
def filterInput (c : Chip) : F32 := fadd (fadd (filteredSum c) (noiseFloor c)) c.params.dcbias

/-- `qd` (R237). -/
def svfDamping (c : Chip) : F32 := fsub f1p5 (fmul (i2f (res4 c).toNat) f3over32)

/-- One tap added if selected (R239). -/
def addTap (sel : Bool) (x out : F32) : F32 := if sel then fadd out x else out

/-- `out` of the state-variable topology (R239). -/
def svfOut (c : Chip) (s0 s1 s2 : F32) : F32 :=
  addTap (flagHp c) s2 (addTap (flagBp c) s1 (addTap (flagLp c) s0 fPos0))

/-- The state-variable topology (R237 to R239): the accumulators and `fout`. -/
def svfStep (c : Chip) (x : F32) : FilterState × F32 :=
  let s := c.filter
  let f := cutoff c
  let s0 := fadd s.s0 (fmul f s.s1)
  let s2 := fsub (fsub x s0) (fmul (svfDamping c) s.s1)
  let s1 := fadd s.s1 (fmul f s2)
  let out := svfOut c s0 s1 s2
  ({ s0 := s0, s1 := s1, s2 := s2, s3 := out, s4 := s.s4 }, out)

/-- The coefficients `g` and `k` of the ladder topology (R241). -/
def ladderCoeffs (c : Chip) : F32 × F32 :=
  let kfc := fmul (cutoff c) fHalf
  let k2 := fmul kfc kfc
  let k3 := fmul k2 kfc
  let fcr := fadd (fadd (fadd (fmul ladder18730 k3) (fmul ladder04955 k2)) (fmul ladderM06490 kfc)) ladder09988
  let acr := fadd (fadd (fmul ladderM39364 k2) (fmul ladder18409 kfc)) ladder09968
  let g := fmul (cutoff c) fcr
  (if flt f1 g then f1 else g, fmul (fmul (i2f (res4 c).toNat) fSixteenth) acr)

/-- One section of the ladder (R243). -/
def ladderSection (g input s : F32) : F32 := fadd s (fmul g (fsub input s))

/-- The five sections (R243) fed by `u`. -/
def ladderSections (g u : F32) (s : FilterState) : FilterState :=
  let s0 := ladderSection g u s.s0
  let s1 := ladderSection g s0 s.s1
  let s2 := ladderSection g s1 s.s2
  let s3 := ladderSection g s2 s.s3
  let s4 := ladderSection g s3 s.s4
  { s0 := s0, s1 := s1, s2 := s2, s3 := s3, s4 := s4 }

/-- `fout` of the ladder topology (R244 to R246). -/
def ladderOut (polemix : F32) (s : FilterState) : F32 :=
  fadd (fmul fHalf (fadd s.s3 s.s4)) (fmul polemix (fadd (fadd s.s0 s.s1) s.s2))

/-- The ladder topology (R241 to R246): the accumulators and `fout`. -/
def ladderStep (c : Chip) (x : F32) : FilterState × F32 :=
  let gk := ladderCoeffs c
  let u := fsub x (fmul gk.2 c.filter.s4)
  let s := ladderSections gk.1 u c.filter
  (s, ladderOut c.params.polemix s)

/-- The topology selected by `ladder` (R235); the other is not evaluated. -/
def filterStep (c : Chip) (x : F32) : FilterState × F32 :=
  if flagLadder c then ladderStep c x else svfStep c x

/-- Volume and gain (R250). -/
def outputSample (c : Chip) (mix : F32) : F32 :=
  fmul (fmul mix (fdiv (i2f (vol4 c).toNat) f15)) c.params.gain

/-- T7 (R230): filter state and sample. -/
def tickAnalogue (c : Chip) : Chip :=
  let r := filterStep c (filterInput c)
  { c with filter := r.1, sample := outputSample c (fadd r.2 (bypassSum c)) }

end Sys2Proof.Machine
end

