-- ==== Sys2Proof/Machine/Tick.lean ====
section
/-! DEFINITION. One tick of a chip: steps T1 to T8 in the order of R170. -/

namespace Sys2Proof.Machine

open Sys2Proof

/-- The digital part of a tick, T1 to T6 (R170). -/
def tickDigital (k : Cfg) (c : Chip) : Chip :=
  tickOutput (tickEnvelope k (tickWave (tickSync (tickPhase k (tickNoise c)))))

/-- One tick (R170). -/
def tick (k : Cfg) (c : Chip) : Chip := tickHold (tickAnalogue (tickDigital k c))

end Sys2Proof.Machine
end

