-- ==== Sys2Proof/Machine/AnalogIO.lean ====
section
/-! DEFINITION. The meanings of the ten analogue-IO commands (`41_analogue_io.md`). -/

namespace Sys2Proof.Machine

open Sys2Proof

/-- `CREATE` (R151): the least dead slot holds a fresh chip; handle and parameter are ignored. -/
def execCreate (_h : Byte) (_p : F32) (s : State) : Host.Outcome State Fault Refusal :=
  match leastDead s.pool with
  | none => failWith s .io .poolFull
  | some n => answer (s.setChip n chipCreated) (i2f n)

/-- `DESTROY` (R152). -/
def execDestroy (h : Byte) (_p : F32) (s : State) : Host.Outcome State Fault Refusal :=
  match s.lookup h with
  | none => failWith s .io .badHandle
  | some (n, _) => answer (s.killChip n) fPos0

/-- `ADVANCE` (R153): one tick; the result is the sample. -/
def execAdvance (h : Byte) (_p : F32) (s : State) : Host.Outcome State Fault Refusal :=
  ioCommand (fun c => (tick s.cfg c, (tick s.cfg c).sample)) h s

/-- `SET_GAIN` (R154). -/
def execSetGain (h : Byte) (p : F32) (s : State) : Host.Outcome State Fault Refusal :=
  let q := clampf p fPos0 f4
  ioCommand (fun c => ({ c with params := { c.params with gain := q } }, q)) h s

/-- The stored detune of a parameter (R155). -/
def detuneOf (p : F32) : BitVec 16 := BitVec.ofNat 16 (min 65535 (floorScaled (clampf p fPos0 f1) 16))

/-- `SET_DETUNE` (R155): `dt` follows, computed at every use. -/
def execSetDetune (h : Byte) (p : F32) (s : State) : Host.Outcome State Fault Refusal :=
  let q := detuneOf p
  ioCommand (fun c => ({ c with params := { c.params with detune := q } }, fdiv (i2f q.toNat) f65536)) h s

/-- `SET_LEAKAGE` (R156). -/
def execSetLeakage (h : Byte) (p : F32) (s : State) : Host.Outcome State Fault Refusal :=
  let q := clampf p fPos0 f1
  ioCommand (fun c => ({ c with params := { c.params with leak := q } }, q)) h s

/-- `SET_SNR` (R157). -/
def execSetSnr (h : Byte) (p : F32) (s : State) : Host.Outcome State Fault Refusal :=
  let q := clampf p fPos0 f1
  ioCommand (fun c => ({ c with params := { c.params with snr := q } }, q)) h s

/-- `SET_DCBIAS` (R158). -/
def execSetDcbias (h : Byte) (p : F32) (s : State) : Host.Outcome State Fault Refusal :=
  let q := clampf p fNeg1 f1
  ioCommand (fun c => ({ c with params := { c.params with dcbias := q } }, q)) h s

/-- `SET_POLEMIX` (R159). -/
def execSetPolemix (h : Byte) (p : F32) (s : State) : Host.Outcome State Fault Refusal :=
  let q := clampf p fPos0 f1
  ioCommand (fun c => ({ c with params := { c.params with polemix := q } }, q)) h s

/-- The stored clock rate of a parameter (R160). -/
def clkHzOf (p : F32) : BitVec 24 := BitVec.ofNat 24 (floorScaled (clampf p f1 f16777215) 0)

/-- `SET_CLOCKRATE` (R160): `inc` and `dt` follow, computed at every use; no register is written. -/
def execSetClockrate (h : Byte) (p : F32) (s : State) : Host.Outcome State Fault Refusal :=
  let q := clkHzOf p
  ioCommand (fun c => ({ c with params := { c.params with clkHz := q } }, i2f q.toNat)) h s

end Sys2Proof.Machine
end

