-- ==== Sys2Proof/Machine/Engine.lean ====
section
/-! DEFINITION. The engine an EV or CLK command works on: the VoiceManager with the chips of the pair (R260 to R262),
and the named accesses to it. The VoiceManager changes a chip only by register writes (R260). -/

namespace Sys2Proof.Machine

open Sys2Proof

/-- The VoiceManager with the audio chip `A` and the modulation chip `M` (R261, R262). -/
structure Engine where
  vm : VoiceManager
  audio : Chip
  modulation : Chip
  deriving DecidableEq, Repr

/-- The engine of a state whose pair is live (R263). -/
def State.engine (s : State) : Option Engine :=
  match s.pair with
  | some (a, m) => some { vm := s.vm, audio := a, modulation := m }
  | none => none

/-- The state with the engine put back: slots 0 and 1 and the VoiceManager. -/
def State.withEngine (s : State) (e : Engine) : State :=
  (({ s with vm := e.vm }.setChip 0 e.audio).setChip 1 e.modulation)

/-- The policy state of voice `v` (R42). -/
def VoiceManager.voice (m : VoiceManager) (v : VoiceId) : PolicyVoice := m.voices.get v

/-- The VoiceManager with the policy state of voice `v` replaced. -/
def VoiceManager.setVoice (m : VoiceManager) (v : VoiceId) (p : PolicyVoice) : VoiceManager :=
  { m with voices := m.voices.set v p }

/-- `keymap[k]` (R41). -/
def VoiceManager.isDown (m : VoiceManager) (k : Key) : Bool := m.keymap[k.toNat]'(k.isLt)

/-- `known[k]` (R41). -/
def VoiceManager.isKnown (m : VoiceManager) (k : Key) : Bool := m.known[k.toNat]'(k.isLt)

/-- `keyvel[k]` (R41). -/
def VoiceManager.velOf (m : VoiceManager) (k : Key) : Velocity := m.keyvel[k.toNat]'(k.isLt)

/-- `keymap[k] <- b`. -/
def VoiceManager.setDown (m : VoiceManager) (k : Key) (b : Bool) : VoiceManager :=
  { m with keymap := m.keymap.set k.toNat b k.isLt }

/-- `known[k] <- b`. -/
def VoiceManager.setKnown (m : VoiceManager) (k : Key) (b : Bool) : VoiceManager :=
  { m with known := m.known.set k.toNat b k.isLt }

/-- `keyvel[k] <- vel`. -/
def VoiceManager.setVel (m : VoiceManager) (k : Key) (vel : Velocity) : VoiceManager :=
  { m with keyvel := m.keyvel.set k.toNat vel k.isLt }

/-- The keys 0..127, ascending (R270). -/
def allKeys : List Key := (List.range 128).map (BitVec.ofNat 7)

/-- The VoiceManager writes a register of the audio chip (R260). -/
def Engine.writeAudio (e : Engine) (r : Reg) (d : Byte) : Engine := { e with audio := chipWrite e.audio r d }

/-- The VoiceManager writes a register of the modulation chip (R260). -/
def Engine.writeModulation (e : Engine) (r : Reg) (d : Byte) : Engine :=
  { e with modulation := chipWrite e.modulation r d }

/-- The engine with the policy state of voice `v` replaced. -/
def Engine.setVoice (e : Engine) (v : VoiceId) (p : PolicyVoice) : Engine := { e with vm := e.vm.setVoice v p }

/-- `actrl[v] <- b`, and the VoiceManager writes `Vv_CTRL` of chip `A` with it. -/
def Engine.writeActrl (e : Engine) (v : VoiceId) (b : Byte) : Engine :=
  (e.setVoice v { e.vm.voice v with actrl := b }).writeAudio (.voice v .ctrl) b

/-- `actrl` with bit 0 set. -/
def gateSet (b : Byte) : Byte := b ||| 0x01#8

/-- `actrl` with bit 0 clear. -/
def gateClear (b : Byte) : Byte := b &&& 0xFE#8

end Sys2Proof.Machine
end

