-- ==== Sys2Proof/Machine/Assign.lean ====
section
/-! DEFINITION. Key scanning and voice assignment (R270 to R279). -/

namespace Sys2Proof.Machine

open Sys2Proof

/-- `Free(v)` (R271). -/
def freeVoice (e : Engine) (v : VoiceId) : Engine :=
  let p := e.vm.voice v
  let e := e.setVoice v { p with vkey := none }
  if p.actrl.getLsbD 0 then e.writeActrl v (gateClear p.actrl) else e

/-- The target frequency of an assignment (R272, R291, R292). -/
def targetFreq (e : Engine) (v : VoiceId) (k : Key) : F32 :=
  let p := e.vm.voice v
  fmul (fmul (i2f (keyFreq k e.audio.params.clkHz).toNat) p.tune) (semi p.transpose)

/-- The policy state of a voice that gets key `k` with target `ftgt` (R272): snap or glide. -/
def assignedVoice (c : Cfg) (p : PolicyVoice) (k : Key) (vel : Velocity) (ftgt : F32) : PolicyVoice :=
  let q := { p with vkey := some k, vvel := vel, ftgt := ftgt }
  if p.glideN = 0#32 then { q with fcur := ftgt, gleft := 0#32, gmul := f1 }
  else { q with gmul := glideMul c.glide (fdiv ftgt p.fcur) p.glideN.toNat, gleft := p.glideN }

/-- `Assign(v, k)` (R272). -/
def assignVoice (c : Cfg) (e : Engine) (v : VoiceId) (k : Key) : Engine :=
  let p := e.vm.voice v
  let vel := e.vm.velOf k
  let e1 := (e.setVoice v (assignedVoice c p k vel (targetFreq e v k)))
  let e2 : Engine := { e1 with vm := { e1.vm with lastvel := vel } }
  if p.actrl.getLsbD 0 then e2 else e2.writeActrl v (gateSet p.actrl)

/-- Voice `v` holds no key. -/
def isFree (m : VoiceManager) (v : VoiceId) : Bool := (m.voice v).vkey == none

/-- The lowest-numbered free voice (R274, R278). -/
def firstFree (m : VoiceManager) : Option VoiceId :=
  if isFree m .v1 then some .v1 else if isFree m .v2 then some .v2 else if isFree m .v3 then some .v3 else none

/-- The number of the key of a voice; a free voice counts as 0, which no caller asks for. -/
def keyNumber (m : VoiceManager) (v : VoiceId) : Nat :=
  match (m.voice v).vkey with
  | some k => k.toNat
  | none => 0

/-- `b` lies between `a` and `c`, in either order. -/
def between (a b c : Nat) : Bool := (decide (a ≤ b) && decide (b ≤ c)) || (decide (c ≤ b) && decide (b ≤ a))

/-- The voice whose key is the median of the three (R274). Where two keys are equal, which R279 excludes, the
lowest-numbered voice that holds the median (DESIGN CHOICE, log entry 14). -/
def medianVoice (m : VoiceManager) : VoiceId :=
  let a := keyNumber m .v1
  let b := keyNumber m .v2
  let c := keyNumber m .v3
  if between b a c then .v1 else if between a b c then .v2 else .v3

/-- `k` lies in the polyphonic zone (R276, R277); in the other modes every key does. -/
def polyZone (m : VoiceManager) (k : Key) : Bool :=
  match m.keymode with
  | .poly3 => decide (m.split.toNat ≤ k.toNat)
  | .poly4 => decide (k.toNat < m.split.toNat)
  | _ => true

/-- `|vkey[v] - k|` (R276). -/
def keyDistance (m : VoiceManager) (v : VoiceId) (k : Key) : Nat :=
  (keyNumber m v - k.toNat) + (k.toNat - keyNumber m v)

/-- The voice a polyphonic key takes in Poly3 and Poly4 (R276): free, voice 1 first, else the nearer, voice 1 on a tie. -/
def splitVoice (m : VoiceManager) (k : Key) : VoiceId :=
  if isFree m .v1 then .v1
  else if isFree m .v3 then .v3
  else if keyDistance m .v1 k ≤ keyDistance m .v3 k then .v1 else .v3

/-- The voice a key takes in Poly1 and Poly2 (R274): first free, else the median. -/
def polyVoice (m : VoiceManager) : VoiceId := (firstFree m).getD (medianVoice m)

/-- `Press(k)` (R273 to R277). -/
def press (c : Cfg) (e : Engine) (k : Key) : Engine :=
  match e.vm.keymode with
  | .mono => assignVoice c (assignVoice c (assignVoice c e .v1 k) .v2 k) .v3 k
  | .poly1 => assignVoice c e (polyVoice e.vm) k
  | .poly2 => assignVoice c e (polyVoice e.vm) k
  | .poly3 => if polyZone e.vm k then assignVoice c e (splitVoice e.vm k) k else e
  | .poly4 => if polyZone e.vm k then assignVoice c e (splitVoice e.vm k) k else e

/-- `Free(v)` if the voice holds `k`. -/
def freeIfHolds (e : Engine) (k : Key) (v : VoiceId) : Engine :=
  if (e.vm.voice v).vkey = some k then freeVoice e v else e

/-- `Free(1); Free(2); Free(3)`. -/
def freeAll (e : Engine) : Engine := freeVoice (freeVoice (freeVoice e .v1) .v2) .v3

/-- `Release(k)` (R273 to R277). -/
def release (e : Engine) (k : Key) : Engine :=
  match e.vm.keymode with
  | .mono => if (e.vm.voice .v1).vkey = some k then freeAll e else e
  | .poly1 => freeIfHolds (freeIfHolds (freeIfHolds e k .v1) k .v2) k .v3
  | .poly2 => freeIfHolds (freeIfHolds (freeIfHolds e k .v1) k .v2) k .v3
  | .poly3 => if polyZone e.vm k then freeIfHolds (freeIfHolds e k .v1) k .v3 else e
  | .poly4 => if polyZone e.vm k then freeIfHolds (freeIfHolds e k .v1) k .v3 else e

/-- `known[k] <- b`, on the engine. -/
def Engine.setKnown (e : Engine) (k : Key) (b : Bool) : Engine := { e with vm := e.vm.setKnown k b }

/-- A tracked key that is no longer down (R270, pass 1). -/
def wasReleased (m : VoiceManager) (k : Key) : Bool := m.isKnown k && !m.isDown k

/-- A key that is down and not yet tracked (R270, pass 2). -/
def wasPressed (m : VoiceManager) (k : Key) : Bool := m.isDown k && !m.isKnown k

/-- Pass 1 of the scan for one key (R270). -/
def scanRelease (e : Engine) (k : Key) : Engine :=
  if wasReleased e.vm k then release (e.setKnown k false) k else e

/-- Pass 2 of the scan for one key (R270). -/
def scanPress (c : Cfg) (e : Engine) (k : Key) : Engine :=
  if wasPressed e.vm k then press c (e.setKnown k true) k else e

/-- `k` is the key of some voice. -/
def isAssigned (m : VoiceManager) (k : Key) : Bool :=
  (m.voice .v1).vkey == some k || (m.voice .v2).vkey == some k || (m.voice .v3).vkey == some k

/-- The re-scan for one key (R278); once no voice is free it changes nothing, which is the rule's stop. -/
def rescanKey (c : Cfg) (e : Engine) (k : Key) : Engine :=
  if e.vm.isKnown k && !isAssigned e.vm k then
    match firstFree e.vm with
    | some v => assignVoice c e v k
    | none => e
  else e

/-- `Rescan()` (R278). -/
def rescan (c : Cfg) (e : Engine) : Engine := allKeys.foldl (rescanKey c) e

/-- The modes with a re-scan (R270, pass 3). -/
def hasRescan (m : KeyMode) : Bool := m == .poly1 || m == .poly2

/-- Some tracked key was released (R270: `anyrel`). Pass 1 changes `known` of a key only at that key, so whether a key
is released can be read before the pass. -/
def anyReleased (m : VoiceManager) : Bool := allKeys.any (wasReleased m)

/-- `Scan()` (R270). -/
def scan (c : Cfg) (e : Engine) : Engine :=
  let e1 := allKeys.foldl scanRelease e
  let e2 := allKeys.foldl (scanPress c) e1
  if anyReleased e.vm && hasRescan e2.vm.keymode then rescan c e2 else e2

end Sys2Proof.Machine
end

