-- ==== Sys2Proof/Machine/Routes.lean ====
section
/-! DEFINITION. Glide (R295) and the modulation routes (R300 to R307). -/

namespace Sys2Proof.Machine

open Sys2Proof

/-- `fcur` has gone past `ftgt` in the direction of `gmul` (R295). -/
def pastTarget (gmul fcur ftgt : F32) : Bool :=
  (fle f1 gmul && flt ftgt fcur) || (fle gmul f1 && flt fcur ftgt)

/-- `GlideStep` of one voice (R295). -/
def glideVoice (p : PolicyVoice) : PolicyVoice :=
  if p.gleft = 0#32 then p
  else
    let f := fmul p.fcur p.gmul
    let f := if pastTarget p.gmul f p.ftgt then p.ftgt else f
    let left := p.gleft - 1#32
    { p with fcur := if left = 0#32 then p.ftgt else f, gleft := left }

/-- `GlideStep(1); GlideStep(2); GlideStep(3)` (R265). -/
def glideStep (m : VoiceManager) : VoiceManager :=
  { m with voices := m.voices.mapVoice fun _ p => glideVoice p }

/-- `lfo` (R301): the oscillator tap of the modulation chip. -/
def lfoSource (m : Chip) : F32 := fdiv (i2f (((m.reg .osc3).toNat : Int) - 128)) f128

/-- `env` (R301): the envelope tap of the modulation chip. -/
def envSource (m : Chip) : F32 := fdiv (i2f (m.reg .env3).toNat) f255

/-- `TouchScale(vel)` (R302). -/
def touchScale (touch : F32) (vel : Velocity) : F32 :=
  fadd (fsub f1 touch) (fmul touch (fdiv (i2f vel.toNat) f127))

/-- `Mod(bl, be, ts)` (R303). -/
def modSum (routes : BitVec 17) (lfo env : F32) (bl be : Nat) (ts : F32) : F32 :=
  let sl := if routes.getLsbD 14 then ts else f1
  let se := if routes.getLsbD 15 then ts else f1
  let m := if routes.getLsbD bl then fadd fPos0 (fmul lfo sl) else fPos0
  if routes.getLsbD be then fadd m (fmul env se) else m

/-- `v - 1`. -/
def voiceIndex : VoiceId → Nat
  | .v1 => 0
  | .v2 => 1
  | .v3 => 2

/-- `rv - 1` (R303): in Poly1 the route bits of voice 1 govern all three voices. -/
def routeIndex (m : VoiceManager) (v : VoiceId) : Nat := if m.keymode = .poly1 then 0 else voiceIndex v

/-- `m_pw[v]` (R303): LFO bit `rv - 1`, envelope bit `rv + 6`. -/
def modPw (m : VoiceManager) (lfo env : F32) (v : VoiceId) : F32 :=
  modSum m.routes lfo env (routeIndex m v) (routeIndex m v + 7) (touchScale m.touch (m.voice v).vvel)

/-- `m_f[v]` (R303): LFO bit `rv + 2`, envelope bit `rv + 9`. -/
def modFreq (m : VoiceManager) (lfo env : F32) (v : VoiceId) : F32 :=
  modSum m.routes lfo env (routeIndex m v + 3) (routeIndex m v + 10) (touchScale m.touch (m.voice v).vvel)

/-- `m_c` (R303). -/
def modCutoff (m : VoiceManager) (lfo env : F32) : F32 :=
  modSum m.routes lfo env 6 13 (touchScale m.touch m.lastvel)

/-- `pw_out[v]` (R304). -/
def pwOut (m : VoiceManager) (lfo env : F32) (v : VoiceId) : BitVec 12 :=
  BitVec.ofInt 12 (clampInt
    (((m.voice v).pwBase.toNat : Int) + f2i (fmul (fmul m.depthPw (modPw m lfo env v)) f2048)) 0 4095)

/-- `p` (R305). -/
def pitchSource (m : VoiceManager) : F32 := if m.routes.getLsbD 16 then m.pitch else fPos0

/-- `factor` (R305). -/
def freqFactor (m : VoiceManager) (lfo env : F32) (v : VoiceId) : F32 :=
  fadd (fadd f1 (fmul m.depthF (modFreq m lfo env v))) (fmul (pitchSource m) fEighth)

/-- `freq_out[v]` (R305). -/
def freqOut (m : VoiceManager) (lfo env : F32) (v : VoiceId) : BitVec 16 :=
  BitVec.ofInt 16 (clampInt (f2i (fmul (m.voice v).fcur (freqFactor m lfo env v))) 0 65535)

/-- `fc_out` (R306). -/
def fcOut (m : VoiceManager) (lfo env : F32) : BitVec 11 :=
  BitVec.ofInt 11 (clampInt
    ((m.fcBase.toNat : Int) + f2i (fmul (fmul m.depthFc (modCutoff m lfo env)) f1024)) 0 2047)

/-- The four writes of one voice (R307). -/
def writeVoiceOut (m : VoiceManager) (lfo env : F32) (c : Chip) (v : VoiceId) : Chip :=
  let f := freqOut m lfo env v
  let w := pwOut m lfo env v
  chipWrite (chipWrite (chipWrite (chipWrite c (.voice v .freqLo) (f.extractLsb' 0 8))
    (.voice v .freqHi) (f.extractLsb' 8 8))
    (.voice v .pwLo) (w.extractLsb' 0 8))
    (.voice v .pwHi) ((w.extractLsb' 8 4).setWidth 8)

/-- The two cutoff writes (R307). -/
def writeCutoffOut (m : VoiceManager) (lfo env : F32) (c : Chip) : Chip :=
  let f := fcOut m lfo env
  chipWrite (chipWrite c .fcLo ((f.extractLsb' 0 3).setWidth 8)) .fcHi (f.extractLsb' 3 8)

/-- `EvalRoutes()` (R307): fourteen register writes to chip `A`. -/
def evalRoutes (e : Engine) : Engine :=
  let lfo := lfoSource e.modulation
  let env := envSource e.modulation
  let w := writeVoiceOut e.vm lfo env
  { e with audio := writeCutoffOut e.vm lfo env (w (w (w e.audio .v1) .v2) .v3) }

end Sys2Proof.Machine
end

