-- ==== Sys2Proof/Machine/Arpeggiator.lean ====
section
/-! DEFINITION. The arpeggiator (R310 to R316). -/

namespace Sys2Proof.Machine

open Sys2Proof

/-- The known keys of the arpeggiator zone, ascending (R310). -/
def arpKeys (m : VoiceManager) : List Key := allKeys.filter fun k => m.isKnown k && !polyZone m k

/-- `ARP_CAP` (R44). -/
def VoiceManager.arpCap (m : VoiceManager) : Nat := m.arp.length

/-- The table rebuilt (R310): at most the first `ARP_CAP` keys; entries past `arp_len` keep what they hold. -/
def rebuildArp (m : VoiceManager) : VoiceManager :=
  let ks := (arpKeys m).take m.arpCap
  { m with arp := ks ++ m.arp.drop ks.length, arpLen := ks.length }

/-- Bits 6:4 rotated left by one (R314): triangle, ramp, pulse, triangle. -/
def rotateWave (b : Byte) : Byte :=
  b.extractLsb' 7 1 ++ b.extractLsb' 5 1 ++ b.extractLsb' 4 1 ++ b.extractLsb' 6 1 ++ b.extractLsb' 0 4

/-- `WaveScan()` (R314). -/
def waveScan (e : Engine) : Engine := e.writeActrl .v2 (rotateWave (e.vm.voice .v2).actrl)

/-- The index of the next step (R313). -/
def nextArpIdx (m : VoiceManager) : Nat := if m.arpKey = none then 0 else (m.arpIdx + 1) % m.arpLen

/-- The owed or immediate assignment of a step (R313, R315). -/
def arpPlay (c : Cfg) (e : Engine) (k : Key) : Engine :=
  let p := e.vm.voice .v2
  if e.vm.arpRetrig && p.vkey != none then
    let e := if p.actrl.getLsbD 0 then e.writeActrl .v2 (gateClear p.actrl) else e
    { e with vm := { e.vm with arpPending := true } }
  else assignVoice c e .v2 k

/-- `ArpStep()` (R313). -/
def arpStep (c : Cfg) (e : Engine) : Engine :=
  let idx := nextArpIdx e.vm
  let k := e.vm.arp.getD idx 0#7
  let e : Engine := { e with vm := { e.vm with arpIdx := idx, arpKey := some k } }
  arpPlay c (if e.vm.arpScan then waveScan e else e) k

/-- The arpeggiator at rest (R310, R311). -/
def arpEmpty (e : Engine) : Engine :=
  let e := if e.vm.arpKey = none then e else freeVoice e .v2
  { e with vm := { e.vm with arpKey := none, arpIdx := 0, arpCnt := 0#32, arpPending := false } }

/-- `arp_cnt <- arp_cnt + n`, s32 (R44). -/
def Engine.addArpCnt (e : Engine) (n : Int) : Engine :=
  { e with vm := { e.vm with arpCnt := e.vm.arpCnt + BitVec.ofInt 32 n } }

/-- The step that is due, if one is (R310, R312). -/
def arpDue (c : Cfg) (e : Engine) : Engine :=
  if e.vm.arpCnt.toInt ≤ 0 then
    (arpStep c e).addArpCnt (max e.vm.arpRate.toNat c.blockSize)
  else e

/-- The modes with an arpeggiator (R265, R310). -/
def hasArp (m : KeyMode) : Bool := m == .poly3 || m == .poly4

/-- `ArpUpdate()` (R310). -/
def arpUpdate (c : Cfg) (e : Engine) : Engine :=
  if hasArp e.vm.keymode then
    let e1 : Engine := { e with vm := rebuildArp e.vm }
    if e1.vm.arpLen = 0 then arpEmpty e1 else (arpDue c e1).addArpCnt (-c.blockSize)
  else e

/-- The second half of a retrigger, after the first sub-block (R265, R315). With no arpeggiator key, which R310
excludes, nothing is assigned (DESIGN CHOICE, log entry 15). -/
def arpOwed (c : Cfg) (e : Engine) : Engine :=
  if e.vm.arpPending then
    let e1 := match e.vm.arpKey with
      | some k => assignVoice c e .v2 k
      | none => e
    { e1 with vm := { e1.vm with arpPending := false } }
  else e

end Sys2Proof.Machine
end

