-- ==== Sys2Proof/Machine/Controllers.lean ====
section
/-! DEFINITION. The controller map (R280 to R289, R297 to R299). -/

namespace Sys2Proof.Machine

open Sys2Proof

/-- Entries 0..29 (R281): a register of chip `A` with the VoiceManager's ownership rules. -/
def ctrlAudio (e : Engine) (r : Reg) (b : Byte) : Engine :=
  match r with
  | .voice _ .freqLo => e
  | .voice _ .freqHi => e
  | .voice v .pwLo =>
    let p := e.vm.voice v
    e.setVoice v { p with pwBase := p.pwBase.extractLsb' 8 4 ++ b }
  | .voice v .pwHi =>
    let p := e.vm.voice v
    e.setVoice v { p with pwBase := b.extractLsb' 0 4 ++ p.pwBase.extractLsb' 0 8 }
  | .voice v .ctrl => e.writeActrl v ((b &&& 0xFE#8) ||| ((e.vm.voice v).actrl &&& 0x01#8))
  | .voice v .ad => e.writeAudio (.voice v .ad) b
  | .voice v .sr => e.writeAudio (.voice v .sr) b
  | .fcLo => { e with vm := { e.vm with fcBase := e.vm.fcBase.extractLsb' 3 8 ++ b.extractLsb' 0 3 } }
  | .fcHi => { e with vm := { e.vm with fcBase := b ++ e.vm.fcBase.extractLsb' 0 3 } }
  | .resFilt => e.writeAudio .resFilt b
  | .modeVol => e.writeAudio .modeVol b
  | .rsv19 => e.writeAudio .rsv19 b
  | .rsv1A => e.writeAudio .rsv1A b
  | .osc3 => e
  | .env3 => e
  | .control => e.writeAudio .control (b &&& 0x7F#8)

/-- Entries 30..59 (R282): a register of chip `M`. -/
def ctrlModulation (e : Engine) (r : Reg) (b : Byte) : Engine :=
  match r with
  | .osc3 => e
  | .env3 => e
  | .control => e.writeModulation .control (b &&& 0x7F#8)
  | .voice v r => e.writeModulation (.voice v r) b
  | .fcLo => e.writeModulation .fcLo b
  | .fcHi => e.writeModulation .fcHi b
  | .resFilt => e.writeModulation .resFilt b
  | .modeVol => e.writeModulation .modeVol b
  | .rsv19 => e.writeModulation .rsv19 b
  | .rsv1A => e.writeModulation .rsv1A b

/-- The VoiceManager after a key-mode change (R283), before `keymode` is written: nothing tracked, arpeggiator at rest. -/
def clearTracking (m : VoiceManager) : VoiceManager :=
  { m with known := Vector.replicate 128 false, arpLen := 0, arpIdx := 0, arpCnt := 0#32, arpKey := none
           arpPending := false }

/-- Entry 60 (R283). -/
def ctrlKeyMode (e : Engine) (m : KeyMode) : Engine :=
  if m = e.vm.keymode then e
  else
    let e := freeAll e
    { e with vm := { clearTracking e.vm with keymode := m } }

/-- `val14 - 8192` as a binary32 (R286, R299). -/
def centredVal (val : BitVec 14) : F32 := i2f ((val.toNat : Int) - 8192)

/-- `val14 / 16383` (R298). -/
def unitVal (val : BitVec 14) : F32 := fdiv (i2f val.toNat) f16383

/-- `tune[v]` of a controller value (R286). -/
def tuneOfVal (val : BitVec 14) : F32 := fadd f1 (fmul (centredVal val) f2m17)

/-- `transpose[v]` of a controller value (R287). -/
def transposeOfVal (val : BitVec 14) : BitVec 8 := BitVec.ofInt 8 (clampInt val.toNat 0 48 - 24)

/-- `pitch` of a controller value (R299). -/
def pitchOfVal (val : BitVec 14) : F32 := fmul (centredVal val) f2m13

/-- Entries 62..64 (R285). -/
def ctrlGlide (e : Engine) (v : VoiceId) (val : BitVec 14) : Engine :=
  e.setVoice v { e.vm.voice v with glideN := BitVec.ofNat 32 (16 * val.toNat) }

/-- Entries 65..67 (R286). -/
def ctrlTune (e : Engine) (v : VoiceId) (val : BitVec 14) : Engine :=
  e.setVoice v { e.vm.voice v with tune := tuneOfVal val }

/-- Entries 68..70 (R287). -/
def ctrlTranspose (e : Engine) (v : VoiceId) (val : BitVec 14) : Engine :=
  e.setVoice v { e.vm.voice v with transpose := transposeOfVal val }

/-- `routes` with one bit written (R297). -/
def setRoute (routes : BitVec 17) (bit : Nat) (on : Bool) : BitVec 17 :=
  if on then routes ||| (1#17 <<< bit) else routes &&& ~~~(1#17 <<< bit)

/-- The entries of the VoiceManager's own fields, 60..95 (R280). -/
def ctrlManager (e : Engine) (idx : Nat) (val : BitVec 14) : Engine :=
  match idx with
  | 60 => ctrlKeyMode e (keyModeOfVal val)
  | 61 => { e with vm := { e.vm with split := BitVec.ofNat 7 (min val.toNat 127) } }
  | 62 => ctrlGlide e .v1 val
  | 63 => ctrlGlide e .v2 val
  | 64 => ctrlGlide e .v3 val
  | 65 => ctrlTune e .v1 val
  | 66 => ctrlTune e .v2 val
  | 67 => ctrlTune e .v3 val
  | 68 => ctrlTranspose e .v1 val
  | 69 => ctrlTranspose e .v2 val
  | 70 => ctrlTranspose e .v3 val
  | 71 => { e with vm := { e.vm with arpRate := BitVec.ofNat 32 (16 * (val.toNat + 1)) } }
  | 72 => { e with vm := { e.vm with arpRetrig := val != 0#14 } }
  | 73 => { e with vm := { e.vm with arpScan := val != 0#14 } }
  | 91 => { e with vm := { e.vm with depthPw := unitVal val } }
  | 92 => { e with vm := { e.vm with depthF := unitVal val } }
  | 93 => { e with vm := { e.vm with depthFc := unitVal val } }
  | 94 => { e with vm := { e.vm with touch := unitVal val } }
  | 95 => { e with vm := { e.vm with pitch := pitchOfVal val } }
  | _ =>
    if 74 ≤ idx ∧ idx ≤ 90 then
      { e with vm := { e.vm with routes := setRoute e.vm.routes (idx - 74) (val != 0#14) } }
    else e

/-- The effect of entry `idx` of the controller map (R280); entries 96..99 have none (R289). -/
def ctrlEffect (e : Engine) (idx : Nat) (val : BitVec 14) : Engine :=
  if idx < 30 then
    match regOfAddr idx with
    | some r => ctrlAudio e r (val.extractLsb' 0 8)
    | none => e
  else if idx < 60 then
    match regOfAddr (idx - 30) with
    | some r => ctrlModulation e r (val.extractLsb' 0 8)
    | none => e
  else ctrlManager e idx val

end Sys2Proof.Machine
end

