-- ==== Sys2Proof/Machine/Events.lean ====
section
/-! DEFINITION. The meanings of the three events (R264, R266, R267) and of the engine clock (R265). -/

namespace Sys2Proof.Machine

open Sys2Proof

/-- An event on a live pair (R263): `f` gives the engine after the effect; the response is 0 (R105). -/
def evCommand (f : Engine → Engine) (s : State) : Host.Outcome State Fault Refusal :=
  match s.engine with
  | none => failWith s .ev .badHandle
  | some e => answer (s.withEngine (f e)) 0#32

/-- `NOTE_ON` (R264): only the key map is edited. -/
def execNoteOn (key : Key) (vel : Velocity) (s : State) : Host.Outcome State Fault Refusal :=
  evCommand (fun e => { e with vm := (e.vm.setDown key true).setVel key vel }) s

/-- `NOTE_OFF` (R266): the velocity is ignored. -/
def execNoteOff (key : Key) (_vel : Velocity) (s : State) : Host.Outcome State Fault Refusal :=
  evCommand (fun e => { e with vm := e.vm.setDown key false }) s

/-- `CTRL_CHANGE` (R267): the index check precedes the pair check (R340). -/
def execCtrlChange (idx : BitVec 7) (val : BitVec 14) (s : State) : Host.Outcome State Fault Refusal :=
  if 99 < idx.toNat then failWith s .ev .badCtrl
  else evCommand (fun e => ctrlEffect e idx.toNat val) s

/-- One tick of a CLK (R265): glide, chip `M`, chip `A`. -/
def clkTick (c : Cfg) (e : Engine) : Engine :=
  { vm := glideStep e.vm, audio := tick c e.audio, modulation := tick c e.modulation }

/-- `n` ticks of a CLK with the audio chip's samples in tick order. -/
def clkTicks (c : Cfg) : Nat → Engine → Engine × List F32
  | 0, e => (e, [])
  | n + 1, e =>
    let e1 := clkTick c e
    let r := clkTicks c n e1
    (r.1, e1.audio.sample :: r.2)

/-- One sub-block (R265). -/
def subBlock (c : Cfg) (e : Engine) : Engine × List F32 :=
  let r := clkTicks c subblock (evalRoutes e)
  (arpOwed c r.1, r.2)

/-- `n` sub-blocks with their samples. -/
def subBlocks (c : Cfg) : Nat → Engine → Engine × List F32
  | 0, e => (e, [])
  | n + 1, e =>
    let b := subBlock c e
    let r := subBlocks c n b.1
    (r.1, b.2 ++ r.2)

/-- The work of a CLK on a live pair (R265): scan, arpeggiator, then `BLOCK_SIZE / 16` sub-blocks. -/
def runBlock (c : Cfg) (e : Engine) : Engine × List F32 :=
  subBlocks c (c.blockSize / subblock) (arpUpdate c (scan c e))

/-- `CLK` (R265): one success response for each tick, in tick order (R84). -/
def execClk (s : State) : Host.Outcome State Fault Refusal :=
  match s.engine with
  | none => failWith s .clk .badHandle
  | some e =>
    let r := runBlock s.cfg e
    .next ((s.withEngine r.1).withRsp (r.2.map .ok))

end Sys2Proof.Machine
end

