-- ==== Sys2Proof/Machine/RegisterWrites.lean ====
section
/-! DEFINITION. The meanings of the 30 register writes (`40_register_writes.md`): each is the exchange of R110 on its
register. The decoded fields of the register follow, since every use computes them (R24, R65). -/

namespace Sys2Proof.Machine

open Sys2Proof

/-- `WR.V1_FREQ_LO` (R112). -/
def execWrV1FreqLo (h d : Byte) (s : State) : Host.Outcome State Fault Refusal := wrCommand (.voice .v1 .freqLo) h d s

/-- `WR.V1_FREQ_HI` (R113). -/
def execWrV1FreqHi (h d : Byte) (s : State) : Host.Outcome State Fault Refusal := wrCommand (.voice .v1 .freqHi) h d s

/-- `WR.V1_PW_LO` (R114). -/
def execWrV1PwLo (h d : Byte) (s : State) : Host.Outcome State Fault Refusal := wrCommand (.voice .v1 .pwLo) h d s

/-- `WR.V1_PW_HI` (R115). -/
def execWrV1PwHi (h d : Byte) (s : State) : Host.Outcome State Fault Refusal := wrCommand (.voice .v1 .pwHi) h d s

/-- `WR.V1_CTRL` (R116). -/
def execWrV1Ctrl (h d : Byte) (s : State) : Host.Outcome State Fault Refusal := wrCommand (.voice .v1 .ctrl) h d s

/-- `WR.V1_AD` (R117). -/
def execWrV1Ad (h d : Byte) (s : State) : Host.Outcome State Fault Refusal := wrCommand (.voice .v1 .ad) h d s

/-- `WR.V1_SR` (R118). -/
def execWrV1Sr (h d : Byte) (s : State) : Host.Outcome State Fault Refusal := wrCommand (.voice .v1 .sr) h d s

/-- `WR.V2_FREQ_LO` (R119). -/
def execWrV2FreqLo (h d : Byte) (s : State) : Host.Outcome State Fault Refusal := wrCommand (.voice .v2 .freqLo) h d s

/-- `WR.V2_FREQ_HI` (R120). -/
def execWrV2FreqHi (h d : Byte) (s : State) : Host.Outcome State Fault Refusal := wrCommand (.voice .v2 .freqHi) h d s

/-- `WR.V2_PW_LO` (R121). -/
def execWrV2PwLo (h d : Byte) (s : State) : Host.Outcome State Fault Refusal := wrCommand (.voice .v2 .pwLo) h d s

/-- `WR.V2_PW_HI` (R122). -/
def execWrV2PwHi (h d : Byte) (s : State) : Host.Outcome State Fault Refusal := wrCommand (.voice .v2 .pwHi) h d s

/-- `WR.V2_CTRL` (R123). -/
def execWrV2Ctrl (h d : Byte) (s : State) : Host.Outcome State Fault Refusal := wrCommand (.voice .v2 .ctrl) h d s

/-- `WR.V2_AD` (R124). -/
def execWrV2Ad (h d : Byte) (s : State) : Host.Outcome State Fault Refusal := wrCommand (.voice .v2 .ad) h d s

/-- `WR.V2_SR` (R125). -/
def execWrV2Sr (h d : Byte) (s : State) : Host.Outcome State Fault Refusal := wrCommand (.voice .v2 .sr) h d s

/-- `WR.V3_FREQ_LO` (R126). -/
def execWrV3FreqLo (h d : Byte) (s : State) : Host.Outcome State Fault Refusal := wrCommand (.voice .v3 .freqLo) h d s

/-- `WR.V3_FREQ_HI` (R127). -/
def execWrV3FreqHi (h d : Byte) (s : State) : Host.Outcome State Fault Refusal := wrCommand (.voice .v3 .freqHi) h d s

/-- `WR.V3_PW_LO` (R128). -/
def execWrV3PwLo (h d : Byte) (s : State) : Host.Outcome State Fault Refusal := wrCommand (.voice .v3 .pwLo) h d s

/-- `WR.V3_PW_HI` (R129). -/
def execWrV3PwHi (h d : Byte) (s : State) : Host.Outcome State Fault Refusal := wrCommand (.voice .v3 .pwHi) h d s

/-- `WR.V3_CTRL` (R130). -/
def execWrV3Ctrl (h d : Byte) (s : State) : Host.Outcome State Fault Refusal := wrCommand (.voice .v3 .ctrl) h d s

/-- `WR.V3_AD` (R131). -/
def execWrV3Ad (h d : Byte) (s : State) : Host.Outcome State Fault Refusal := wrCommand (.voice .v3 .ad) h d s

/-- `WR.V3_SR` (R132). -/
def execWrV3Sr (h d : Byte) (s : State) : Host.Outcome State Fault Refusal := wrCommand (.voice .v3 .sr) h d s

/-- `WR.FC_LO` (R133). -/
def execWrFcLo (h d : Byte) (s : State) : Host.Outcome State Fault Refusal := wrCommand .fcLo h d s

/-- `WR.FC_HI` (R134). -/
def execWrFcHi (h d : Byte) (s : State) : Host.Outcome State Fault Refusal := wrCommand .fcHi h d s

/-- `WR.RES_FILT` (R135). -/
def execWrResFilt (h d : Byte) (s : State) : Host.Outcome State Fault Refusal := wrCommand .resFilt h d s

/-- `WR.MODE_VOL` (R136). -/
def execWrModeVol (h d : Byte) (s : State) : Host.Outcome State Fault Refusal := wrCommand .modeVol h d s

/-- `WR.RSV19` (R137). -/
def execWrRsv19 (h d : Byte) (s : State) : Host.Outcome State Fault Refusal := wrCommand .rsv19 h d s

/-- `WR.RSV1A` (R138). -/
def execWrRsv1A (h d : Byte) (s : State) : Host.Outcome State Fault Refusal := wrCommand .rsv1A h d s

/-- `WR.OSC3` (R139). -/
def execWrOsc3 (h d : Byte) (s : State) : Host.Outcome State Fault Refusal := wrCommand .osc3 h d s

/-- `WR.ENV3` (R140). -/
def execWrEnv3 (h d : Byte) (s : State) : Host.Outcome State Fault Refusal := wrCommand .env3 h d s

/-- `WR.CONTROL` (R147). -/
def execWrControl (h d : Byte) (s : State) : Host.Outcome State Fault Refusal := wrCommand .control h d s

end Sys2Proof.Machine
end

