-- ==== Sys2Proof/Machine/Dispatch.lean ====
section
/-! DEFINITION. One arm for each instruction, each one call of its meaning. -/

namespace Sys2Proof.Machine

open Sys2Proof

def exec (i : Instr) (s : State) : Host.Outcome State Fault Refusal :=
  match i with
  | .wrV1FreqLo h d => Sys2Proof.Machine.execWrV1FreqLo h d s
  | .wrV1FreqHi h d => Sys2Proof.Machine.execWrV1FreqHi h d s
  | .wrV1PwLo h d => Sys2Proof.Machine.execWrV1PwLo h d s
  | .wrV1PwHi h d => Sys2Proof.Machine.execWrV1PwHi h d s
  | .wrV1Ctrl h d => Sys2Proof.Machine.execWrV1Ctrl h d s
  | .wrV1Ad h d => Sys2Proof.Machine.execWrV1Ad h d s
  | .wrV1Sr h d => Sys2Proof.Machine.execWrV1Sr h d s
  | .wrV2FreqLo h d => Sys2Proof.Machine.execWrV2FreqLo h d s
  | .wrV2FreqHi h d => Sys2Proof.Machine.execWrV2FreqHi h d s
  | .wrV2PwLo h d => Sys2Proof.Machine.execWrV2PwLo h d s
  | .wrV2PwHi h d => Sys2Proof.Machine.execWrV2PwHi h d s
  | .wrV2Ctrl h d => Sys2Proof.Machine.execWrV2Ctrl h d s
  | .wrV2Ad h d => Sys2Proof.Machine.execWrV2Ad h d s
  | .wrV2Sr h d => Sys2Proof.Machine.execWrV2Sr h d s
  | .wrV3FreqLo h d => Sys2Proof.Machine.execWrV3FreqLo h d s
  | .wrV3FreqHi h d => Sys2Proof.Machine.execWrV3FreqHi h d s
  | .wrV3PwLo h d => Sys2Proof.Machine.execWrV3PwLo h d s
  | .wrV3PwHi h d => Sys2Proof.Machine.execWrV3PwHi h d s
  | .wrV3Ctrl h d => Sys2Proof.Machine.execWrV3Ctrl h d s
  | .wrV3Ad h d => Sys2Proof.Machine.execWrV3Ad h d s
  | .wrV3Sr h d => Sys2Proof.Machine.execWrV3Sr h d s
  | .wrFcLo h d => Sys2Proof.Machine.execWrFcLo h d s
  | .wrFcHi h d => Sys2Proof.Machine.execWrFcHi h d s
  | .wrResFilt h d => Sys2Proof.Machine.execWrResFilt h d s
  | .wrModeVol h d => Sys2Proof.Machine.execWrModeVol h d s
  | .wrRsv19 h d => Sys2Proof.Machine.execWrRsv19 h d s
  | .wrRsv1A h d => Sys2Proof.Machine.execWrRsv1A h d s
  | .wrOsc3 h d => Sys2Proof.Machine.execWrOsc3 h d s
  | .wrEnv3 h d => Sys2Proof.Machine.execWrEnv3 h d s
  | .wrControl h d => Sys2Proof.Machine.execWrControl h d s
  | .create h p => Sys2Proof.Machine.execCreate h p s
  | .destroy h p => Sys2Proof.Machine.execDestroy h p s
  | .advance h p => Sys2Proof.Machine.execAdvance h p s
  | .setGain h p => Sys2Proof.Machine.execSetGain h p s
  | .setDetune h p => Sys2Proof.Machine.execSetDetune h p s
  | .setLeakage h p => Sys2Proof.Machine.execSetLeakage h p s
  | .setSnr h p => Sys2Proof.Machine.execSetSnr h p s
  | .setDcbias h p => Sys2Proof.Machine.execSetDcbias h p s
  | .setPolemix h p => Sys2Proof.Machine.execSetPolemix h p s
  | .setClockrate h p => Sys2Proof.Machine.execSetClockrate h p s
  | .noteOn key vel => Sys2Proof.Machine.execNoteOn key vel s
  | .noteOff key vel => Sys2Proof.Machine.execNoteOff key vel s
  | .ctrlChange idx val => Sys2Proof.Machine.execCtrlChange idx val s
  | .clk => Sys2Proof.Machine.execClk s

end Sys2Proof.Machine
end

