-- ==== Sys2Proof/Machine/Port.lean ====
section
/-! DEFINITION. The shared command port and the two contexts that feed it (R70, R71, R349): a context issues words in an
order of its own, the port accepts them in arrival order, and any interleaving of the two contexts is possible. -/

namespace Sys2Proof.Machine

open Sys2Proof

/-- The agent that moves next (R71). With no move listed the core performs a command (log entry 13). -/
def Agents.next (a : Agents) : Move :=
  match a.moves with
  | [] => .perform
  | m :: _ => m

/-- The move has been made. -/
def Agents.advance (a : Agents) : Agents := { a with moves := a.moves.tail }

/-- The words a context has issued and the port has not accepted, oldest first. -/
def Agents.issued (a : Agents) : Context → List CmdWord
  | .control => a.control
  | .render => a.render

/-- The words of one context replaced. -/
def Agents.setIssued (a : Agents) (c : Context) (ws : List CmdWord) : Agents :=
  match c with
  | .control => { a with control := ws }
  | .render => { a with render := ws }

/-- A context issues a command word: it waits behind the words that context has issued before. -/
def State.issue (s : State) (c : Context) (w : CmdWord) : State :=
  { s with agents := s.agents.setIssued c (s.agents.issued c ++ [w]) }

/-- The move that is next has been made. -/
def State.advance (s : State) : State := { s with agents := s.agents.advance }

/-- The port accepts the oldest word a context has issued, behind the words already accepted (R70, R71: arrival order).
A context that has issued nothing hands over nothing. -/
def State.accept (s : State) (c : Context) : State :=
  match s.agents.issued c with
  | [] => s
  | w :: rest => { s with port := s.port ++ [w], agents := s.agents.setIssued c rest }

end Sys2Proof.Machine
end

