-- ==== Sys2Proof/Machine/Step.lean ====
section
/-! DEFINITION. One step: the agent whose turn it is moves. A context hands a word to the port (R71), or the core takes
the first word of the port, decodes it and performs it completely (R70). -/

namespace Sys2Proof.Machine

open Sys2Proof

/-- The core performs a command word. A word that is none of the 44 commands is answered by its failure (R100). -/
def perform (w : CmdWord) (s : State) : Host.Outcome State Fault Refusal :=
  match decode w with
  | .ok i => exec i s
  | .error e => rejectWord e s

/-- The core's move (R70). With no command waiting nothing changes: the hardware acts only inside a command (R341, R351;
DEDUCED, log entry 11). -/
def performFirst (s : State) : Host.Outcome State Fault Refusal :=
  match s.port with
  | [] => .next s
  | w :: rest => perform w { s with port := rest }

/-- One step. A command is one step, so a word that arrives while it runs is accepted in a later one, behind it (R71). -/
def step (s : State) : Host.Outcome State Fault Refusal :=
  match s.agents.next with
  | .arrive c => .next (s.advance.accept c)
  | .perform => performFirst s.advance

/-- `s` with the command word where the core takes its next command and the core's move next (log entry 1). This names
the next command, whatever waits; words arrive by `State.issue` and `State.accept`, in arrival order. -/
def State.withFetchWord (s : State) (nbits w : Nat) : State :=
  { s with
    port := tableWord nbits w :: s.port
    agents := { s.agents with moves := .perform :: s.agents.moves } }

end Sys2Proof.Machine
end

