-- ==== Sys2Proof/Safety.lean ====
section
/-! DEFINITION. The terms statements use: what a safe step is, which handles are valid, the states commands end in,
and what holds of a well-formed machine. -/

namespace Sys2Proof.Machine

open Sys2Proof

/-- A safe step: the machine answers and goes on. R330, R342: no command stops the hardware. -/
abbrev StepsSafely (s : State) : Prop := ∃ t, step s = .next t

/-- The core is about to perform the command word `w` (R70), and `s'` is the state it performs it on: the word is taken
from the port, and the move is made (the list of moves is the model's own, log entry 13). -/
abbrev CommandNext (s : State) (w : CmdWord) (s' : State) : Prop :=
  s.agents.next = .perform ∧ s.port = w :: s'.port ∧
    s' = { s with port := s'.port, agents := { s.agents with moves := s.agents.moves.tail } }

/-- Command words performed one after the other (R70). -/
def performAll : List CmdWord → State → Host.Outcome State Fault Refusal
  | [], s => .next s
  | w :: ws, s =>
    match perform w s with
    | .next t => performAll ws t
    | .fault f => .fault f
    | .refused r => .refused r

/-- The words that arrive at the port under a list of moves, with the context each comes from (R71): `cs` are the words the
control context has issued, `rs` those of the render path. -/
def arrivals : List Move → List CmdWord → List CmdWord → List (Context × CmdWord)
  | [], _, _ => []
  | .perform :: ms, cs, rs => arrivals ms cs rs
  | .arrive .control :: ms, cs, rs =>
    match cs with
    | [] => arrivals ms [] rs
    | w :: cs' => (.control, w) :: arrivals ms cs' rs
  | .arrive .render :: ms, cs, rs =>
    match rs with
    | [] => arrivals ms cs []
    | w :: rs' => (.render, w) :: arrivals ms cs rs'

/-- The words of context `c` among arrivals. -/
def wordsOf (c : Context) (l : List (Context × CmdWord)) : List CmdWord :=
  (l.filter fun x => decide (x.1 = c)).map fun x => x.2

/-- Handle field `h` names slot `n`, which is live and holds chip `c` (R21, R332). -/
abbrev HandleOf (s : State) (h : Byte) (n : Nat) (c : Chip) : Prop :=
  0 ≤ h.toInt ∧ h.toNat = n ∧ s.pool[n]? = some (some c)

/-- Handle field `h` is not valid (R332): negative, past the pool, or the handle of a dead slot. -/
abbrev HandleInvalid (s : State) (h : Byte) : Prop :=
  h.toInt < 0 ∨ s.pool.length ≤ h.toNat ∨ s.pool[h.toNat]? = some none

/-- Slots 0 and 1 are live and hold the audio chip `a` and the modulation chip `m` (R262, R263). -/
abbrev PairOf (s : State) (a m : Chip) : Prop :=
  s.pool[0]? = some (some a) ∧ s.pool[1]? = some (some m)

/-- Slot 0 or slot 1 is not live (R263). -/
abbrev PairBroken (s : State) : Prop :=
  (∀ a, s.pool[0]? ≠ some (some a)) ∨ (∀ m, s.pool[1]? ≠ some (some m))

/-- `s` after a register write (R110): slot `n`, which held `c`, has `d` at address `a`; the response is the byte
before; nothing else changed. -/
def State.exchanged (s : State) (n : Nat) (c : Chip) (a : Fin 32) (d : Byte) : State :=
  { s with
    pool := s.pool.set n (some { c with regs := c.regs.set a.val d a.isLt })
    rsp := [.ok ((c.regs[a]).setWidth 32)] }

/-- `s` after a setter (R150): slot `n`, which held `c`, has the analogue parameters `p`; the response is `v`. -/
def State.paramsSet (s : State) (n : Nat) (c : Chip) (p : AnalogParams) (v : F32) : State :=
  { s with pool := s.pool.set n (some { c with params := p }), rsp := [.ok v] }

/-- `s` after an event (R105): the VoiceManager is `vm`, the pair is `a`, `m`, the response is 0. -/
def State.eventDone (s : State) (vm : VoiceManager) (a m : Chip) : State :=
  { s with vm := vm, pool := (s.pool.set 0 (some a)).set 1 (some m), rsp := [.ok 0#32] }

/-- `s` after a failure (R335): only the response is new. -/
def State.failed (s : State) (code : FailCode) (v : BitVec 32) : State :=
  { s with rsp := [.fail code v] }

/-- The rational value of a finite binary32 pattern (R11); 0 for an infinity or a NaN. -/
def f32Value (x : F32) : ℚ :=
  match unpack x with
  | .fin neg m e => (if neg then -(m : ℚ) else (m : ℚ)) * (2 : ℚ) ^ e
  | _ => 0

/-- The response is a failure. -/
def Response.isFail : Response → Bool
  | .ok _ => false
  | .fail _ _ => true

/-- The handle operand of a WR command and of an IO command other than CREATE (R332). -/
def handleOperand : Instr → Option Byte
  | .create _ _ => none
  | .noteOn _ _ => none
  | .noteOff _ _ => none
  | .ctrlChange _ _ => none
  | .clk => none
  | .wrV1FreqLo h _ => some h
  | .wrV1FreqHi h _ => some h
  | .wrV1PwLo h _ => some h
  | .wrV1PwHi h _ => some h
  | .wrV1Ctrl h _ => some h
  | .wrV1Ad h _ => some h
  | .wrV1Sr h _ => some h
  | .wrV2FreqLo h _ => some h
  | .wrV2FreqHi h _ => some h
  | .wrV2PwLo h _ => some h
  | .wrV2PwHi h _ => some h
  | .wrV2Ctrl h _ => some h
  | .wrV2Ad h _ => some h
  | .wrV2Sr h _ => some h
  | .wrV3FreqLo h _ => some h
  | .wrV3FreqHi h _ => some h
  | .wrV3PwLo h _ => some h
  | .wrV3PwHi h _ => some h
  | .wrV3Ctrl h _ => some h
  | .wrV3Ad h _ => some h
  | .wrV3Sr h _ => some h
  | .wrFcLo h _ => some h
  | .wrFcHi h _ => some h
  | .wrResFilt h _ => some h
  | .wrModeVol h _ => some h
  | .wrRsv19 h _ => some h
  | .wrRsv1A h _ => some h
  | .wrOsc3 h _ => some h
  | .wrEnv3 h _ => some h
  | .wrControl h _ => some h
  | .destroy h _ => some h
  | .advance h _ => some h
  | .setGain h _ => some h
  | .setDetune h _ => some h
  | .setLeakage h _ => some h
  | .setSnr h _ => some h
  | .setDcbias h _ => some h
  | .setPolemix h _ => some h
  | .setClockrate h _ => some h

/-- The sentinel of a word's class (R84): binary32 -1.0 for IO and CLK, all ones for every other class. -/
def wordSentinel (w : CmdWord) : BitVec 32 :=
  if fieldClass w = 1#4 ∨ fieldClass w = 3#4 then 0xBF800000#32 else 0xFFFFFFFF#32

/-- The bits of a register that no rule of the tick reads (R22, R69, R96, R101, R350), with the two taps a tick
overwrites. -/
def unreadBits (a : Nat) : Byte :=
  if a = 0x03 ∨ a = 0x0A ∨ a = 0x11 then 0xF0#8
  else if a = 0x15 then 0xF8#8
  else if a = 0x17 then 0x08#8
  else if a = 0x1D then 0x9F#8
  else if a = 0x19 ∨ a = 0x1A ∨ a = 0x1B ∨ a = 0x1C ∨ a = 0x1E ∨ a = 0x1F then 0xFF#8
  else 0x00#8

/-- `x` is finite and lies between `lo` and `hi`. -/
def inRange (lo hi x : F32) : Bool := isFinite x && fle lo x && fle x hi

/-- The analogue parameters lie in their ranges and are finite (R29, R251). `DETUNE` has no illegal value. -/
abbrev ParamsWf (p : AnalogParams) : Prop :=
  inRange fPos0 f4 p.gain = true ∧ inRange fPos0 f1 p.leak = true ∧ inRange fPos0 f1 p.snr = true
    ∧ inRange fNeg1 f1 p.dcbias = true ∧ inRange fPos0 f1 p.polemix = true ∧ 1 ≤ p.clkHz.toNat

/-- What every voice of a chip keeps between commands: the noise register is not stuck at 0 (R222), `held` has latched
`centre` (R187), `centre` is in its range (R27), and `d` is the product (R186). -/
abbrev VoiceWf (o : Voice) : Prop :=
  o.n1 ≠ 0#24 ∧ o.held = o.centre ∧ -8192 ≤ o.centre.toInt ∧ o.centre.toInt ≤ 8191
    ∧ o.d.toInt = o.centre.toInt * o.cnt.toNat

/-- What every chip keeps between commands: its parameters and voices are well-formed, the reset bit of `CONTROL` reads
0 (R147), the unreachable registers read `0x00` (R22) and the tap `ENV3` is the counter of voice 3 (R140). -/
abbrev ChipWf (c : Chip) : Prop :=
  ParamsWf c.params ∧ VoiceWf c.voices.v1 ∧ VoiceWf c.voices.v2 ∧ VoiceWf c.voices.v3
    ∧ (c.regs[0x1D]).msb = false ∧ c.regs[0x1E] = 0#8 ∧ c.regs[0x1F] = 0#8 ∧ c.regs[0x1C] = c.voices.v3.cnt

/-- What the policy state of a voice keeps between commands: the gate shadow is set exactly when a key is assigned
(R279), the transposition and the glide time lie in their ranges (R42, R285, R287). -/
abbrev PolicyWf (p : PolicyVoice) : Prop :=
  p.actrl.getLsbD 0 = p.vkey.isSome ∧ -24 ≤ p.transpose.toInt ∧ p.transpose.toInt ≤ 24
    ∧ p.glideN.toNat ≤ 262128 ∧ p.glideN.toNat % 16 = 0 ∧ p.gleft.toNat ≤ 262128

/-- What the VoiceManager keeps between commands: its voices are well-formed, the arpeggiator table is used within its
capacity (R44) and no note is owed (R315). -/
abbrev ManagerWf (m : VoiceManager) : Prop :=
  PolicyWf m.voices.v1 ∧ PolicyWf m.voices.v2 ∧ PolicyWf m.voices.v3
    ∧ m.arpLen ≤ m.arp.length ∧ m.arpIdx < m.arp.length ∧ m.arpPending = false

/-- The invariant of assignment in Poly1 and Poly2 (R279): an assigned key is tracked, and no two voices hold the same
key. -/
abbrev AssignmentWf (m : VoiceManager) : Prop :=
  m.keymode = .poly1 ∨ m.keymode = .poly2 →
    (∀ v k, (m.voice v).vkey = some k → m.isKnown k = true)
      ∧ ∀ v w k, (m.voice v).vkey = some k → (m.voice w).vkey = some k → v = w

/-- A well-formed machine: the instantiation is legal (U41, U42), every live chip is well-formed, and so is the
VoiceManager. -/
abbrev StateWf (s : State) : Prop :=
  s.cfg.wf ∧ (∀ c, some c ∈ s.pool → ChipWf c) ∧ ManagerWf s.vm ∧ AssignmentWf s.vm

end Sys2Proof.Machine
end

