-- ==== Sys2Proof/Certificates/Slice0/Obligations.lean ====
section
/-! DEFINITION. The statements about the model. A statement whose name is followed by a rule in its docstring
formalises that rule of `spec/`; a choice of the model's own is named with its log entry. -/

open Sys2Proof Sys2Proof.Machine

/-! ### Reset and the step -/

/-- R362 with the values of R50 and R51: engine reset of an instantiation with `poolSize` slots and arpeggiator capacity
`arpCap`. Two chips are live, each as CREATE leaves it; the VoiceManager holds the table of R51. -/
def Obligations.EngineResetHoldsTheStatedValues : Prop :=
  ∀ (k : Cfg) (poolSize arpCap : Nat), 2 ≤ poolSize →
    let s := State.resetWith k poolSize arpCap
    s.pool.length = poolSize
      ∧ s.pool[0]? = some (some chipCreated) ∧ s.pool[1]? = some (some chipCreated)
      ∧ (∀ n, 2 ≤ n → n < poolSize → s.pool[n]? = some none)
      ∧ chipCreated.regs = #v[0xD6#8, 0x1C#8, 0x00#8, 0x08#8, 0x00#8, 0x00#8, 0x00#8, 0xD6#8, 0x1C#8, 0x00#8, 0x08#8,
          0x00#8, 0x00#8, 0x00#8, 0xD6#8, 0x1C#8, 0x00#8, 0x08#8, 0x00#8, 0x00#8, 0x00#8, 0x00#8, 0x00#8, 0x00#8, 0x00#8,
          0x00#8, 0x00#8, 0x00#8, 0x00#8, 0x00#8, 0x00#8, 0x00#8]
      ∧ (∀ v : VoiceId, chipCreated.voices.get v =
          { phase := 0#24, phaseP := 0#24, phaseT := 0#24, wrap := false, centre := 0#15, held := 0#15, d := 0#23
            est := .release, cnt := 0#8, hc := 0#16, sub := 0#32
            n1 := match v with | .v1 => 0x7FFFF8#24 | .v2 => 0x3FFFFC#24 | .v3 => 0x1FFFFE#24
            n2 := 0#24, nout := 0#12 })
      ∧ chipCreated.params =
          { gain := 0x3F800000#32, detune := 0#16, leak := 0#32, snr := 0#32, dcbias := 0#32, polemix := 0#32
            clkHz := 1000000#24 }
      ∧ chipCreated.filter = { s0 := 0#32, s1 := 0#32, s2 := 0#32, s3 := 0#32, s4 := 0#32 }
      ∧ chipCreated.sample = 0#32
      ∧ s.vm.keymode = .poly1
      ∧ (∀ key, s.vm.isDown key = false ∧ s.vm.isKnown key = false ∧ s.vm.velOf key = 0#7) ∧ s.vm.lastvel = 0#7
      ∧ (∀ v, s.vm.voice v =
          { vkey := none, vvel := 0#7, tune := 0x3F800000#32, transpose := 0#8, glideN := 0#32, fcur := 0x45E6B000#32
            ftgt := 0x45E6B000#32, gmul := 0x3F800000#32, gleft := 0#32, pwBase := 0x800#12, actrl := 0x00#8 })
      ∧ s.vm.routes = 0#17 ∧ s.vm.depthPw = 0#32 ∧ s.vm.depthF = 0#32 ∧ s.vm.depthFc = 0#32 ∧ s.vm.touch = 0#32
      ∧ s.vm.pitch = 0#32 ∧ s.vm.fcBase = 0#11
      ∧ s.vm.arp = List.replicate arpCap 0#7 ∧ s.vm.arpLen = 0 ∧ s.vm.arpIdx = 0 ∧ s.vm.arpCnt = 0#32
      ∧ s.vm.arpKey = none ∧ s.vm.arpRate = BitVec.ofNat 32 k.blockSize ∧ s.vm.arpRetrig = true
      ∧ s.vm.arpScan = false ∧ s.vm.arpPending = false ∧ s.vm.split = 60#7

/-- R70: when it is the core's turn, a step takes the first command word of the port and, when it decodes to a command,
performs that command on the state with the word removed and the move made. Whose turn it is, is a field of the model's
own (log entry 13). -/
def Obligations.StepRunsTheDecodedCommand : Prop :=
  ∀ (s s' : State) (w : CmdWord) (i : Instr), CommandNext s w s' → decode w = .ok i → step s = exec i s'

/-- The model's choice (log entries 11 and 13), from R341 and R351: with no command waiting and no move listed a step changes
nothing. -/
def Obligations.IdleStepChangesNothing : Prop :=
  ∀ s : State, s.port = [] → s.agents.moves = [] → step s = .next s

/-- R81, R100, R340: the words that are none of the 44 commands for a reason the decoder sees alone. Each answers
`Fail(BadCmd)` with the sentinel of its class and changes nothing else. -/
def Obligations.MalformedWordsFailWithBadCmd : Prop :=
  ∀ (s s' : State) (w : CmdWord), CommandNext s w s' →
    (4 ≤ (fieldClass w).toNat
      ∨ (fieldRsvA w ≠ 0#4 ∨ fieldRsvB w ≠ 0#8)
      ∨ (fieldClass w = 0#4 ∧ w.extractLsb' 8 24 ≠ 0#24)
      ∨ (fieldClass w = 1#4 ∧ 9 < (fieldSel w).toNat)
      ∨ (fieldClass w = 2#4 ∧ (fieldHandle w ≠ 0#8 ∨ 2 < (fieldSel w).toNat))
      ∨ (fieldClass w = 2#4 ∧ (fieldSel w).toNat < 2 ∧ (w.extractLsb' 7 1 ≠ 0#1 ∨ w.extractLsb' 15 17 ≠ 0#17))
      ∨ (fieldClass w = 2#4 ∧ fieldSel w = 2#8 ∧ (w.extractLsb' 14 2 ≠ 0#2 ∨ w.extractLsb' 23 9 ≠ 0#9))
      ∨ (fieldClass w = 3#4 ∧ w.extractLsb' 0 56 ≠ 0#56)) →
    step s = .next (s'.failed .badCmd (wordSentinel w))

/-- R330, R342: no command stops the hardware. From every state a step answers a next state. -/
def Obligations.EveryStepAnswers : Prop :=
  ∀ s : State, StepsSafely s

/-- R84: the responses of a command by its class. WR, IO and EV and a word of a reserved class produce one; CLK produces
one for each tick of the block or the single failure. `err` is bit 32 and the value bits 31:0. -/
def Obligations.ResponsesHaveTheFormOfTheirClass : Prop :=
  (∀ v, (Response.ok v).bits = 0#1 ++ v) ∧ (∀ c v, (Response.fail c v).bits = 1#1 ++ v) ∧
  ∀ (s s' : State) (w : CmdWord), CommandNext s w s' → s.cfg.wf →
    ∃ t, step s = .next t ∧
      (fieldClass w = 0#4 →
        (∃ b : Byte, t.rsp = [.ok (b.setWidth 32)]) ∨ ∃ c, t.rsp = [.fail c 0xFFFFFFFF#32]) ∧
      (fieldClass w = 1#4 → (∃ v, t.rsp = [.ok v]) ∨ ∃ c, t.rsp = [.fail c 0xBF800000#32]) ∧
      (fieldClass w = 2#4 → t.rsp = [.ok 0#32] ∨ ∃ c, t.rsp = [.fail c 0xFFFFFFFF#32]) ∧
      (fieldClass w = 3#4 →
        (∃ l : List F32, l.length = s.cfg.blockSize ∧ t.rsp = l.map .ok) ∨ ∃ c, t.rsp = [.fail c 0xBF800000#32]) ∧
      (4 ≤ (fieldClass w).toNat → ∃ c, t.rsp = [.fail c 0xFFFFFFFF#32])

/-- R336, R335: a failing command leaves nothing but its own response, and the command after it runs exactly as if the
failing one had not been issued. -/
def Obligations.AFailureLeavesNoRecord : Prop :=
  ∀ (s s' t : State) (w : CmdWord),
    CommandNext s w s' → step s = .next t → (∃ r, r ∈ t.rsp ∧ r.isFail = true) →
      t = { s' with rsp := t.rsp } ∧ t.rsp.length = 1 ∧
      ∀ (u : State) (v : CmdWord), CommandNext t v u → step t = step s'

/-- R47: no step changes the instantiation, the number of slots or the capacity of the arpeggiator table. The rest is about
fields of the model's own (log entry 13): a step uses up the first move of the list, if one is listed; a move of the core
takes the first word of the port and no other, or none from an empty port (log entry 11), and leaves the contexts alone. -/
def Obligations.ConfigurationIsFixed : Prop :=
  ∀ s t : State, step s = .next t →
    t.cfg = s.cfg ∧ t.pool.length = s.pool.length ∧ t.vm.arp.length = s.vm.arp.length
      ∧ t.agents.moves = s.agents.moves.tail
      ∧ (s.agents.next = .perform →
        t.port = s.port.tail ∧ t.agents.control = s.agents.control ∧ t.agents.render = s.agents.render)

/-- R348, R268: chips share no state. A WR or IO command other than CREATE touches only the slot its handle names and
never the VoiceManager; CREATE touches one dead slot only; an event or a CLK touches no slot from 2 up. -/
def Obligations.OtherChipsAreUntouched : Prop :=
  ∀ (i : Instr) (s t : State), exec i s = .next t →
    (∀ h, handleOperand i = some h → t.vm = s.vm ∧ ∀ n : Nat, n ≠ h.toNat → t.pool[n]? = s.pool[n]?) ∧
    (∀ h p, i = .create h p → t.vm = s.vm ∧
      (t.pool = s.pool ∨ ∃ n : Nat, s.pool[n]? = some none ∧ ∀ m : Nat, m ≠ n → t.pool[m]? = s.pool[m]?)) ∧
    (handleOperand i = none → (∀ h p, i ≠ .create h p) → ∀ n : Nat, 2 ≤ n → t.pool[n]? = s.pool[n]?)

/-! ### Encoding -/

/-- Words of `95_test_vectors.md` section 2.1, written out, with the command each stands for. -/
def Obligations.WrittenWordsDecode : Prop :=
  decode 0x0000040000000021#64 = .ok (.wrV1Ctrl 0x00#8 0x21#8)
    ∧ decode 0x00011400000000F0#64 = .ok (.wrV3Sr 0x01#8 0xF0#8)
    ∧ decode 0x00031D0000000080#64 = .ok (.wrControl 0x03#8 0x80#8)
    ∧ decode 0x1002010000000000#64 = .ok (.destroy 0x02#8 0x00000000#32)
    ∧ decode 0x100004003C23D70A#64 = .ok (.setDetune 0x00#8 0x3C23D70A#32)
    ∧ decode 0x1001090049708A00#64 = .ok (.setClockrate 0x01#8 0x49708A00#32)
    ∧ decode 0x200000000000643C#64 = .ok (.noteOn 60#7 100#7)
    ∧ decode 0x2000010000000040#64 = .ok (.noteOff 64#7 0#7)
    ∧ decode 0x20000200005D3FFF#64 = .ok (.ctrlChange 93#7 16383#14)
    ∧ decode 0x3000000000000000#64 = .ok .clk

/-- R82 to R87: encoding a command and decoding the word gives the command back, with every operand at every value its
field holds, for all 44 commands. -/
def Obligations.DecodingAnEncodedCommandGivesItBack : Prop :=
  ∀ i : Instr, decode (encode i) = .ok i

/-- R99, R102: the decoder accepts exactly the words of the opcode map, each as its own row; no two rows share a word;
and every word that decodes is the encoding of what it decodes to, so a command has one word. -/
def Obligations.DecoderAcceptsExactlyTheOpcodeMap : Prop :=
  (∀ (w : CmdWord) (i : Instr), decode w = .ok i → encode i = w) ∧
  (∀ (w : CmdWord) (i : Instr), decode w = .ok i → w &&& rowMask i = rowMatch i) ∧
  (∀ (w : CmdWord) (i : Instr), w &&& rowMask i = rowMatch i →
    ∃ j, decode w = .ok j ∧ rowMatch j = rowMatch i ∧ rowMask j = rowMask i) ∧
  (∀ (w : CmdWord) (i j : Instr), w &&& rowMask i = rowMatch i → w &&& rowMask j = rowMatch j →
    rowMatch i = rowMatch j ∧ rowMask i = rowMask j)

/-! ### Failures -/

/-- R332: the handle check of every WR command and of every IO command except CREATE: it fails with `BadHandle` exactly
when the handle is not valid. CREATE does not look at its handle and never fails so; an EV or CLK word with a handle field
is malformed, and `BadHandle` of an EV or CLK command is the pair check. -/
def Obligations.AnInvalidHandleFails : Prop :=
  (∀ (i : Instr) (h : Byte) (s : State), handleOperand i = some h →
    (HandleInvalid s h ↔ exec i s = .next (s.failed .badHandle (wordSentinel (encode i))))) ∧
  (∀ (h h' : Byte) (p : F32) (s : State), exec (.create h p) s = exec (.create h' p) s) ∧
  (∀ (h : Byte) (p : F32) (s : State) (v : BitVec 32), exec (.create h p) s ≠ .next (s.failed .badHandle v)) ∧
  (∀ w : CmdWord, fieldClass w = 2#4 ∨ fieldClass w = 3#4 → fieldHandle w ≠ 0#8 →
    ∃ cls, decode w = .error (.badCmd cls)) ∧
  (∀ (i : Instr) (s : State) (v : BitVec 32), handleOperand i = none → (∀ h p, i ≠ .create h p) →
    exec i s = .next (s.failed .badHandle v) → PairBroken s)

/-- R333: the address check of a WR word, after the handle check. All 30 addresses up to `0x1D` answer a byte. -/
def Obligations.TheAddressCheckFollowsTheHandleCheck : Prop :=
  ∀ (s s' : State) (h a d : Byte), CommandNext s (encodeWr a h d) s' →
    (0x1D < a.toNat → HandleInvalid s h →
      step s = .next (s'.failed .badHandle 0xFFFFFFFF#32)) ∧
    (∀ n c, 0x1D < a.toNat → HandleOf s h n c →
      step s = .next (s'.failed .badAddr 0xFFFFFFFF#32)) ∧
    (∀ n c, a.toNat ≤ 0x1D → HandleOf s h n c →
      ∃ t b, step s = .next t ∧ t.rsp = [.ok b] ∧ ∃ l : Fin 32, l.val = a.toNat ∧ b = (c.regs[l]).setWidth 32)

/-- R263: the pair check of the events and of CLK, and that they can fail in no other way but by the controller index. -/
def Obligations.ABrokenPairFailsEventsAndClock : Prop :=
  (∀ s : State, PairBroken s →
    (∀ key vel, exec (.noteOn key vel) s = .next (s.failed .badHandle 0xFFFFFFFF#32)) ∧
    (∀ key vel, exec (.noteOff key vel) s = .next (s.failed .badHandle 0xFFFFFFFF#32)) ∧
    (∀ idx val, idx.toNat ≤ 99 → exec (.ctrlChange idx val) s = .next (s.failed .badHandle 0xFFFFFFFF#32)) ∧
    exec .clk s = .next (s.failed .badHandle 0xBF800000#32)) ∧
  (∀ (s t : State) (a m : Chip) (i : Instr), PairOf s a m → handleOperand i = none → (∀ h p, i ≠ .create h p) →
    (∀ idx val, i = .ctrlChange idx val → idx.toNat ≤ 99) → exec i s = .next t → ∀ r ∈ t.rsp, r.isFail = false)

/-- R289: controllers 96 to 99 succeed and change nothing; indices from 100 up fail whatever the pair is. -/
def Obligations.ReservedAndUnknownControllers : Prop :=
  (∀ (s : State) (a m : Chip) (idx : BitVec 7) (val : BitVec 14), PairOf s a m → 96 ≤ idx.toNat → idx.toNat ≤ 99 →
    exec (.ctrlChange idx val) s = .next { s with rsp := [.ok 0#32] }) ∧
  (∀ (s : State) (idx : BitVec 7) (val : BitVec 14), 99 < idx.toNat →
    exec (.ctrlChange idx val) s = .next (s.failed .badCtrl 0xFFFFFFFF#32))

/-! ### Register writes -/

/-- R112 to R115, R119 to R122, R126 to R129 with R110: the six frequency and the six pulse-width registers; the ignored
high nibble of a pulse width is stored. -/
def Obligations.FrequencyAndPulseWidthWritesExchangeOneByte : Prop :=
  ∀ (s : State) (h d : Byte) (n : Nat) (c : Chip), HandleOf s h n c →
    exec (.wrV1FreqLo h d) s = .next (s.exchanged n c 0x00 d)
      ∧ exec (.wrV1FreqHi h d) s = .next (s.exchanged n c 0x01 d)
      ∧ exec (.wrV2FreqLo h d) s = .next (s.exchanged n c 0x07 d)
      ∧ exec (.wrV2FreqHi h d) s = .next (s.exchanged n c 0x08 d)
      ∧ exec (.wrV3FreqLo h d) s = .next (s.exchanged n c 0x0E d)
      ∧ exec (.wrV3FreqHi h d) s = .next (s.exchanged n c 0x0F d)
      ∧ exec (.wrV1PwLo h d) s = .next (s.exchanged n c 0x02 d)
      ∧ exec (.wrV1PwHi h d) s = .next (s.exchanged n c 0x03 d)
      ∧ exec (.wrV2PwLo h d) s = .next (s.exchanged n c 0x09 d)
      ∧ exec (.wrV2PwHi h d) s = .next (s.exchanged n c 0x0A d)
      ∧ exec (.wrV3PwLo h d) s = .next (s.exchanged n c 0x10 d)
      ∧ exec (.wrV3PwHi h d) s = .next (s.exchanged n c 0x11 d)

/-- R116, R117, R118, R123 to R125, R130 to R132 with R110: the control, attack/decay and sustain/release registers of
the three voices. No envelope or oscillator moves in the command. -/
def Obligations.VoiceControlAndEnvelopeWritesExchangeOneByte : Prop :=
  ∀ (s : State) (h d : Byte) (n : Nat) (c : Chip), HandleOf s h n c →
    exec (.wrV1Ctrl h d) s = .next (s.exchanged n c 0x04 d)
      ∧ exec (.wrV1Ad h d) s = .next (s.exchanged n c 0x05 d)
      ∧ exec (.wrV1Sr h d) s = .next (s.exchanged n c 0x06 d)
      ∧ exec (.wrV2Ctrl h d) s = .next (s.exchanged n c 0x0B d)
      ∧ exec (.wrV2Ad h d) s = .next (s.exchanged n c 0x0C d)
      ∧ exec (.wrV2Sr h d) s = .next (s.exchanged n c 0x0D d)
      ∧ exec (.wrV3Ctrl h d) s = .next (s.exchanged n c 0x12 d)
      ∧ exec (.wrV3Ad h d) s = .next (s.exchanged n c 0x13 d)
      ∧ exec (.wrV3Sr h d) s = .next (s.exchanged n c 0x14 d)

/-- R133 to R140 with R110: the filter, volume and reserved registers are exchanged; a write to a tap discards the byte
for every value, answers the tap and changes nothing. -/
def Obligations.FilterReservedAndTapWrites : Prop :=
  ∀ (s : State) (h d : Byte) (n : Nat) (c : Chip), HandleOf s h n c →
    exec (.wrFcLo h d) s = .next (s.exchanged n c 0x15 d)
      ∧ exec (.wrFcHi h d) s = .next (s.exchanged n c 0x16 d)
      ∧ exec (.wrResFilt h d) s = .next (s.exchanged n c 0x17 d)
      ∧ exec (.wrModeVol h d) s = .next (s.exchanged n c 0x18 d)
      ∧ exec (.wrRsv19 h d) s = .next (s.exchanged n c 0x19 d)
      ∧ exec (.wrRsv1A h d) s = .next (s.exchanged n c 0x1A d)
      ∧ exec (.wrOsc3 h d) s = .next { s with rsp := [.ok ((c.regs[0x1B]).setWidth 32)] }
      ∧ exec (.wrEnv3 h d) s = .next { s with rsp := [.ok ((c.regs[0x1C]).setWidth 32)] }

/-- R147, R148: a CONTROL write stores the byte; with bit 7 set it first resets the chip, keeps the analogue parameters,
computes the default tone from the current clock rate and stores the byte without bit 7. Nothing outside the chip
changes but the response. -/
def Obligations.ControlWritesStoreOrReset : Prop :=
  ∀ (s : State) (h d : Byte) (n : Nat) (c : Chip), HandleOf s h n c →
    (d.msb = false → exec (.wrControl h d) s = .next (s.exchanged n c 0x1D d)) ∧
    (d.msb = true →
      let tone : BitVec 16 :=
        BitVec.ofNat 16 (min 65535 ((2 * 440 * 2 ^ 24 + c.params.clkHz.toNat) / (2 * c.params.clkHz.toNat)))
      let lo : Byte := tone.extractLsb' 0 8
      let hi : Byte := tone.extractLsb' 8 8
      let rest (n1 : BitVec 24) : Voice :=
        { phase := 0#24, phaseP := 0#24, phaseT := 0#24, wrap := false, centre := 0#15, held := 0#15, d := 0#23
          est := .release, cnt := 0#8, hc := 0#16, sub := 0#32, n1 := n1, n2 := 0#24, nout := 0#12 }
      let c' : Chip :=
        { regs := #v[lo, hi, 0x00#8, 0x08#8, 0x00#8, 0x00#8, 0x00#8, lo, hi, 0x00#8, 0x08#8, 0x00#8, 0x00#8, 0x00#8,
            lo, hi, 0x00#8, 0x08#8, 0x00#8, 0x00#8, 0x00#8, 0x00#8, 0x00#8, 0x00#8, 0x00#8, 0x00#8, 0x00#8, 0x00#8,
            0x00#8, d &&& 0x7F#8, 0x00#8, 0x00#8]
          voices := { v1 := rest 0x7FFFF8#24, v2 := rest 0x3FFFFC#24, v3 := rest 0x1FFFFE#24 }
          params := c.params
          filter := { s0 := 0#32, s1 := 0#32, s2 := 0#32, s3 := 0#32, s4 := 0#32 }
          sample := 0#32 }
      exec (.wrControl h d) s =
        .next { s with pool := s.pool.set n (some c'), rsp := [.ok ((c.regs[0x1D]).setWidth 32)] })

/-- R24, R88 to R97, R171 to R172, R203, R204, R236: the decoded fields are these functions of the raw bytes and the
analogue parameters, for each voice with base address `b`; the hold and step of a rate code follow from the table of
nominal times (R201). -/
def Obligations.DecodedFieldsFollowTheRegisters : Prop :=
  (∀ (k : Cfg) (c : Chip) (v : VoiceId) (b : Fin 15),
    (v = .v1 ∧ b = 0 ∨ v = .v2 ∧ b = 7 ∨ v = .v3 ∧ b = 14) →
      (freq16 c v).toNat = 256 * (c.regs[b.val + 1]).toNat + (c.regs[b.val]).toNat
      ∧ (pw12 c v).toNat = 256 * ((c.regs[b.val + 3]).toNat % 16) + (c.regs[b.val + 2]).toNat
      ∧ flagNoise c v = (c.regs[b.val + 4])[7] ∧ flagPulse c v = (c.regs[b.val + 4])[6]
      ∧ flagRamp c v = (c.regs[b.val + 4])[5] ∧ flagTri c v = (c.regs[b.val + 4])[4]
      ∧ flagTest c v = (c.regs[b.val + 4])[3] ∧ flagRing c v = (c.regs[b.val + 4])[2]
      ∧ flagSync c v = (c.regs[b.val + 4])[1] ∧ flagGate c v = (c.regs[b.val + 4])[0]
      ∧ (atk c v).toNat = (c.regs[b.val + 5]).toNat / 16 ∧ (dcy c v).toNat = (c.regs[b.val + 5]).toNat % 16
      ∧ (sus c v).toNat = (c.regs[b.val + 6]).toNat / 16 ∧ (rel c v).toNat = (c.regs[b.val + 6]).toNat % 16
      ∧ (suslevel c v).toNat = 17 * (sus c v).toNat
      ∧ (inc k c v).toNat = (freq16 c v).toNat * c.params.clkHz.toNat / k.sampleRate % 2 ^ 24
      ∧ (dt k c v).toNat = (inc k c v).toNat * c.params.detune.toNat / 65536
      ∧ (fc11 c).toNat = 8 * (c.regs[0x16]).toNat + (c.regs[0x15]).toNat % 8
      ∧ f32Value (cutoff c) = ((fc11 c).toNat : ℚ) / 2048
      ∧ (res4 c).toNat = (c.regs[0x17]).toNat / 16
      ∧ flagFilt c .v1 = (c.regs[0x17])[0] ∧ flagFilt c .v2 = (c.regs[0x17])[1] ∧ flagFilt c .v3 = (c.regs[0x17])[2]
      ∧ flagV3off c = (c.regs[0x18])[7] ∧ flagHp c = (c.regs[0x18])[6] ∧ flagBp c = (c.regs[0x18])[5]
      ∧ flagLp c = (c.regs[0x18])[4] ∧ (vol4 c).toNat = (c.regs[0x18]).toNat % 16
      ∧ flagLadder c = (c.regs[0x1D])[6] ∧ flagMulti c = (c.regs[0x1D])[5] ∧ flagDebug c = (c.regs[0x1D])[4]) ∧
  (let ms : List Nat := [2, 8, 16, 24, 38, 56, 68, 80, 100, 250, 500, 800, 1000, 3000, 5000, 8000]
  (∀ (k : Cfg) (code : BitVec 4), 1 ≤ k.sampleRate →
    let num := ms.getD code.toNat 0 * k.sampleRate
    (255000 ≤ num → ratePair k code = { hold := (2 * num + 255000) / 510000, step := 1 }) ∧
    (num < 255000 → (ratePair k code).hold = 1 ∧
      ((ratePair k code).step : Int) = ⌈(255000 : ℚ) / (num : ℚ)⌉)) ∧
  (∀ k : Cfg, k.sampleRate = 44100 →
    (List.range 16).map (fun n => ((ratePair k (BitVec.ofNat 4 n)).hold, (ratePair k (BitVec.ofNat 4 n)).step)) =
      [(1, 3), (1, 1), (3, 1), (4, 1), (7, 1), (10, 1), (12, 1), (14, 1), (17, 1), (43, 1), (86, 1), (138, 1), (173, 1),
        (519, 1), (865, 1), (1384, 1)]))

/-- R236, section 8 property P6: the cutoff decoded from a register pair gives the pair back, but for the five ignored
bits of `FC_LO`. -/
def Obligations.CutoffRoundTripRecoversTheRegisterPair : Prop :=
  ∀ c : Chip,
    f2i (fmul (cutoff c) 0x45000000#32) = ((fc11 c).toNat : Int)
      ∧ (fc11 c).extractLsb' 3 8 = c.regs[0x16]
      ∧ (fc11 c).extractLsb' 0 3 = (c.regs[0x15]).extractLsb' 0 3

/-! ### Analogue IO -/

/-- R151: CREATE makes the least dead slot live with a fresh chip and answers its number; with every slot live it fails
with the negative handle and changes nothing. Handle and parameter are ignored. -/
def Obligations.CreateTakesTheLeastDeadSlot : Prop :=
  (∀ (s : State) (h : Byte) (p : F32) (n : Nat), s.pool[n]? = some none →
    (∀ j, j < n → ∃ c, s.pool[j]? = some (some c)) →
      exec (.create h p) s = .next { s with pool := s.pool.set n (some chipCreated), rsp := [.ok (i2f n)] }) ∧
  (∀ (s : State) (h : Byte) (p : F32), (∀ j, j < s.pool.length → ∃ c, s.pool[j]? = some (some c)) →
    exec (.create h p) s = .next (s.failed .poolFull 0xBF800000#32)) ∧
  (∀ n, n < 128 → f32Value (i2f n) = (n : ℚ))

/-- R152, R375: DESTROY makes the slot dead and answers 0.0; when every slot below it is live, the next CREATE hands the
same handle out again, with a fresh chip. -/
def Obligations.DestroyFreesTheSlotForReuse : Prop :=
  (∀ (s : State) (h : Byte) (p : F32) (n : Nat) (c : Chip), HandleOf s h n c →
    exec (.destroy h p) s = .next { s with pool := s.pool.set n none, rsp := [.ok 0#32] }) ∧
  (∀ (s : State) (h h' : Byte) (p p' : F32) (n : Nat) (c : Chip), HandleOf s h n c →
    (∀ j, j < n → ∃ b, s.pool[j]? = some (some b)) →
      ∃ t u, exec (.destroy h p) s = .next t ∧ HandleInvalid t h ∧ exec (.create h' p') t = .next u
        ∧ u = { s with pool := s.pool.set n (some chipCreated), rsp := [.ok (i2f n)] })

/-- R153: ADVANCE performs one tick of the chip and answers the sample. -/
def Obligations.AdvanceRunsOneTick : Prop :=
  ∀ (s : State) (h : Byte) (p : F32) (n : Nat) (c : Chip), HandleOf s h n c →
    exec (.advance h p) s =
      .next { s with pool := s.pool.set n (some (tick s.cfg c)), rsp := [.ok (tick s.cfg c).sample] }

/-- R154, R156 to R159: five setters store the clamped parameter and answer what they stored. -/
def Obligations.FloatSettersStoreTheClampedParameter : Prop :=
  ∀ (s : State) (h : Byte) (p : F32) (n : Nat) (c : Chip), HandleOf s h n c →
    (let q := clampf p 0x00000000#32 0x40800000#32
     exec (.setGain h p) s = .next (s.paramsSet n c { c.params with gain := q } q))
      ∧ (let q := clampf p 0x00000000#32 0x3F800000#32
         exec (.setLeakage h p) s = .next (s.paramsSet n c { c.params with leak := q } q)
           ∧ exec (.setSnr h p) s = .next (s.paramsSet n c { c.params with snr := q } q)
           ∧ exec (.setPolemix h p) s = .next (s.paramsSet n c { c.params with polemix := q } q))
      ∧ (let q := clampf p 0xBF800000#32 0x3F800000#32
         exec (.setDcbias h p) s = .next (s.paramsSet n c { c.params with dcbias := q } q))

/-- R155, R160: the detune is stored as the whole part of 65536 times the clamped parameter, at most 65535; the clock
rate as the whole part of the clamped parameter. The answers are exact. -/
def Obligations.DetuneAndClockRateAreStoredAsIntegers : Prop :=
  ∀ (s : State) (h : Byte) (p : F32) (n : Nat) (c : Chip), HandleOf s h n c →
    (∃ (q : BitVec 16) (r : F32),
      exec (.setDetune h p) s = .next (s.paramsSet n c { c.params with detune := q } r)
        ∧ (q.toNat : Int) = min 65535 ⌊f32Value (clampf p 0x00000000#32 0x3F800000#32) * 65536⌋
        ∧ f32Value r = (q.toNat : ℚ) / 65536) ∧
    (∃ (q : BitVec 24) (r : F32),
      exec (.setClockrate h p) s = .next (s.paramsSet n c { c.params with clkHz := q } r)
        ∧ (q.toNat : Int) = ⌊f32Value (clampf p 0x3F800000#32 0x4B7FFFFF#32)⌋
        ∧ f32Value r = (q.toNat : ℚ))

/-- R162: a parameter is conditioned to its bounds; a NaN, an infinity below and, for a bound of 0.0, -0.0 give the lower
bound, an infinity above gives the upper bound, and the result is always finite and between the bounds. -/
def Obligations.ParameterConditioningClamps : Prop :=
  ∀ p lo hi : F32, isFinite lo = true → isFinite hi = true → fle lo hi = true →
    inRange lo hi (clampf p lo hi) = true
      ∧ (unpack p = .nan → clampf p lo hi = lo)
      ∧ (unpack p = .inf true → clampf p lo hi = lo)
      ∧ (unpack p = .inf false → clampf p lo hi = hi)
      ∧ (isFinite p = true → f32Value p ≤ f32Value lo → clampf p lo hi = lo)
      ∧ (isFinite p = true → f32Value lo < f32Value p → f32Value p ≤ f32Value hi → clampf p lo hi = p)
      ∧ (isFinite p = true → f32Value lo < f32Value p → f32Value hi < f32Value p → clampf p lo hi = hi)

/-! ### The tick -/

/-- R221: the noise generators advance in every tick, whatever the voice's flags are. -/
def Obligations.NoiseGeneratorsAdvanceEveryTick : Prop :=
  ∀ (k : Cfg) (c : Chip) (v : VoiceId),
    let o := c.voices.get v
    let o' := (tick k c).voices.get v
    let fb : Bool := o.n1[23] ^^ o.n1[22] ^^ o.n1[21] ^^ o.n1[16]
    o'.n1 = ((o.n1 <<< 1) ||| (BitVec.ofBool fb).setWidth 24)
      ∧ o'.n2 = o.n2 + o'.n1
      ∧ o'.nout.toNat = (o'.n1 ^^^ o'.n2).toNat / 4096

/-- R173 to R176: a voice held by `test` is at phase 0; otherwise its accumulators advance and `wrap` is the carry; a
synced voice whose previous voice wrapped in this tick restarts at phase 0 and keeps its own `wrap`. -/
def Obligations.PhasesAdvanceUnlessTestedOrSynced : Prop :=
  ∀ (k : Cfg) (c : Chip) (v : VoiceId),
    let o := c.voices.get v
    let o' := (tick k c).voices.get v
    let restarted := flagSync c v = true ∧ ((tick k c).voices.get (prevVoice v)).wrap = true
    (flagTest c v = true → o'.phase = 0#24 ∧ o'.phaseP = 0#24 ∧ o'.phaseT = 0#24 ∧ o'.wrap = false) ∧
    (flagTest c v = false →
      (o'.wrap = true ↔ 2 ^ 24 ≤ o.phase.toNat + (inc k c v).toNat) ∧
      (restarted → o'.phase = 0#24 ∧ o'.phaseP = 0#24 ∧ o'.phaseT = 0#24) ∧
      (¬restarted → o'.phase = o.phase + inc k c v ∧ o'.phaseP = o.phaseP + inc k c v + dt k c v
        ∧ o'.phaseT = o.phaseT + inc k c v - dt k c v))

/-- R189, section 8 property P1: with test and sync off, the phase after `n` ticks is the start plus `n` increments modulo
2^24; it is back at its start when `n` increments are a multiple of 2^24; and it has wrapped as often as whole turns
were made. -/
def Obligations.PhaseAfterManyTicks : Prop :=
  ∀ (k : Cfg) (c : Chip) (v : VoiceId) (n : Nat), flagTest c v = false → flagSync c v = false →
    let p := (c.voices.get v).phase.toNat
    let i := (inc k c v).toNat
    (((tick k)^[n] c).voices.get v).phase.toNat = (p + n * i) % 2 ^ 24
      ∧ (2 ^ 24 ∣ n * i → (((tick k)^[n] c).voices.get v).phase = (c.voices.get v).phase)
      ∧ ((List.range n).filter fun j => (((tick k)^[j + 1] c).voices.get v).wrap).length = (p + n * i) / 2 ^ 24

/-- R177 to R181, R184: in AND mixing the voice's waveform is the AND of the selected 12-bit waveforms, each computed
from this tick's phases and noise; ring modulation changes only the triangle's fold; with nothing selected it is the mid
value. -/
def Obligations.AndMixingCombinesTheSelectedWaveforms : Prop :=
  ∀ (k : Cfg) (c : Chip) (v : VoiceId), flagMulti c = false →
    let o' := (tick k c).voices.get v
    let ramp : BitVec 12 := BitVec.ofNat 12 (o'.phase.toNat / 4096)
    let pulse : BitVec 12 := if (pw12 c v).toNat ≤ ramp.toNat then 0xFFF#12 else 0x000#12
    let fold : Bool := o'.phase[23] ^^ (flagRing c v && ((tick k c).voices.get (prevVoice v)).phase[23])
    let tri : BitVec 12 := BitVec.ofNat 12 (o'.phase.toNat / 2048) ^^^ (if fold then 0xFFF#12 else 0x000#12)
    let w0 : BitVec 12 := if flagNoise c v then o'.nout else 0xFFF#12
    let w1 : BitVec 12 := if flagPulse c v then w0 &&& pulse else w0
    let w2 : BitVec 12 := if flagRamp c v then w1 &&& ramp else w1
    let w3 : BitVec 12 := if flagTri c v then w2 &&& tri else w2
    let none' := flagNoise c v = false ∧ flagPulse c v = false ∧ flagRamp c v = false ∧ flagTri c v = false
    (none' → o'.centre.toInt = 0) ∧ (¬none' → o'.centre.toInt = (w3.toNat : Int) - 2048)

/-- R182, R187, R381: in multi mixing the selected waveforms are summed, each centred, pulse and triangle from their own
accumulators; ring modulation multiplies by the previous voice's sample of the tick before, shifts right by 11 and
clamps. -/
def Obligations.MultiMixingSumsTheSelectedWaveforms : Prop :=
  ∀ (k : Cfg) (c : Chip) (v : VoiceId), flagMulti c = true →
    let o' := (tick k c).voices.get v
    let pulse : Nat := if (pw12 c v).toNat ≤ o'.phaseP.toNat / 4096 then 4095 else 0
    let ramp : Nat := o'.phase.toNat / 4096
    let tri : Nat := if o'.phaseT[23] then 4095 - o'.phaseT.toNat / 2048 % 4096 else o'.phaseT.toNat / 2048 % 4096
    let acc : Int := (if flagNoise c v then (o'.nout.toNat : Int) - 2048 else 0)
      + (if flagPulse c v then (pulse : Int) - 2048 else 0)
      + (if flagRamp c v then (ramp : Int) - 2048 else 0) + (if flagTri c v then (tri : Int) - 2048 else 0)
    let held : Int := (c.voices.get (prevVoice v)).held.toInt
    (flagRing c v = false → o'.centre.toInt = acc ∧ -8192 ≤ acc ∧ acc ≤ 8188) ∧
    (flagRing c v = true → o'.centre.toInt = max (-8192) (min 8191 ⌊((acc * held : Int) : ℚ) / 2048⌋))

/-- R186 to R188, R153: what a tick leaves in the digital outputs, the held samples and the two taps; every other
register and every analogue parameter is unchanged. -/
def Obligations.TickWritesOutputsAndTapsOnly : Prop :=
  ∀ (k : Cfg) (c : Chip),
    let c' := tick k c
    (∀ v, (c'.voices.get v).d.toInt = (c'.voices.get v).centre.toInt * (c'.voices.get v).cnt.toNat
        ∧ (c'.voices.get v).held = (c'.voices.get v).centre)
      ∧ ((c'.regs[0x1B]).toNat : Int) = max 0 (min 4095 (c'.voices.v3.centre.toInt + 2048)) / 16
      ∧ c'.regs[0x1C] = c'.voices.v3.cnt
      ∧ (∀ a : Fin 32, a.val ≠ 0x1B → a.val ≠ 0x1C → c'.regs[a] = c.regs[a])
      ∧ c'.params = c.params

/-- R205, R206, R211: a tick of a gated voice in release or attack. The attack starts in the tick that sees the gate, from
the counter as it stands; the counter steps when the hold is reached. -/
def Obligations.AttackStepsAfterItsHold : Prop :=
  ∀ (k : Cfg) (c : Chip) (v : VoiceId),
    let o := c.voices.get v
    let o' := (tick k c).voices.get v
    let p := ratePair k (atk c v)
    let hc : BitVec 16 := (if o.est = .release then 0#16 else o.hc) + 1#16
    flagGate c v = true → (o.est = .release ∨ o.est = .attack) →
      (p.hold ≤ hc.toNat → o'.hc = 0#16 ∧ o'.cnt.toNat = min 255 (o.cnt.toNat + p.step) ∧
        (o'.cnt = 255#8 → o'.est = .decay ∧ o'.sub = 0#32) ∧
        (o'.cnt ≠ 255#8 → o'.est = .attack ∧ o'.sub = o.sub)) ∧
      (hc.toNat < p.hold → o'.hc = hc ∧ o'.cnt = o.cnt ∧ o'.est = .attack ∧ o'.sub = o.sub)

/-- R205, R207 to R209, R211: a tick of a gated voice in decay or sustain, with the default `DecayMult`. The counter
never goes below the sustain level and never up. -/
def Obligations.DecayAndSustainFollowTheSustainLevel : Prop :=
  ∀ (k : Cfg) (c : Chip) (v : VoiceId), k.decay = .table →
    let o := c.voices.get v
    let o' := (tick k c).voices.get v
    let p := ratePair k (dcy c v)
    let low := 17 * (sus c v).toNat
    let n := o.cnt.toNat
    let mult := if 94 ≤ n then 1 else if 55 ≤ n then 2 else if 27 ≤ n then 4 else if 15 ≤ n then 8
      else if 7 ≤ n then 16 else if 1 ≤ n then 30 else 1
    flagGate c v = true →
      (o.est = .decay → n ≤ low → o'.est = .sustain ∧ o'.cnt = o.cnt ∧ o'.sub = o.sub ∧ o'.hc = o.hc) ∧
      (o.est = .decay → low < n → (o.sub + 1#32).toNat < p.hold * mult →
        o'.est = .decay ∧ o'.cnt = o.cnt ∧ o'.sub = o.sub + 1#32 ∧ o'.hc = o.hc) ∧
      (o.est = .decay → low < n → p.hold * mult ≤ (o.sub + 1#32).toNat →
        o'.cnt.toNat = max low (n - p.step) ∧ o'.sub = 0#32 ∧ o'.hc = o.hc ∧
        (o'.est = .sustain ↔ o'.cnt.toNat = low) ∧ (o'.est = .decay ↔ o'.cnt.toNat ≠ low)) ∧
      (o.est = .sustain → n ≤ low → o'.est = .sustain ∧ o'.cnt = o.cnt ∧ o'.sub = o.sub ∧ o'.hc = o.hc) ∧
      (o.est = .sustain → low < n → o'.est = .decay ∧ o'.cnt = o.cnt ∧ o'.sub = 0#32 ∧ o'.hc = o.hc)

/-- R205, R209 to R211: a tick of a voice whose gate is low, with the default `DecayMult`. The release starts in the tick
that sees the gate low and takes its first step there. -/
def Obligations.ReleaseRunsDownToZero : Prop :=
  ∀ (k : Cfg) (c : Chip) (v : VoiceId), k.decay = .table →
    let o := c.voices.get v
    let o' := (tick k c).voices.get v
    let p := ratePair k (rel c v)
    let n := o.cnt.toNat
    let mult := if 94 ≤ n then 1 else if 55 ≤ n then 2 else if 27 ≤ n then 4 else if 15 ≤ n then 8
      else if 7 ≤ n then 16 else 30
    let sub : BitVec 32 := if o.est = .release then o.sub else 0#32
    flagGate c v = false →
      o'.est = .release ∧ o'.hc = o.hc ∧
      (n = 0 → o'.cnt = 0#8 ∧ o'.sub = sub) ∧
      (0 < n → (sub + 1#32).toNat < p.hold * mult → o'.cnt = o.cnt ∧ o'.sub = sub + 1#32) ∧
      (0 < n → p.hold * mult ≤ (sub + 1#32).toNat → o'.cnt.toNat = n - p.step ∧ o'.sub = 0#32)

/-- R206, R213, section 8 property P2: with the gate held, an envelope at rest reaches 255 after exactly
`ceil(255 / step) * hold` ticks, for every rate code and every sample rate up to 2^20. -/
def Obligations.AttackTakesExactlyItsRateTime : Prop :=
  ∀ (k : Cfg) (c : Chip) (v : VoiceId), 1 ≤ k.sampleRate → k.sampleRate ≤ 2 ^ 20 →
    flagGate c v = true → (c.voices.get v).est = .release → (c.voices.get v).cnt = 0#8 →
      let p := ratePair k (atk c v)
      let total := (255 + p.step - 1) / p.step * p.hold
      (∀ n, n < total → (((tick k)^[n] c).voices.get v).cnt.toNat < 255) ∧
      (((tick k)^[total] c).voices.get v).cnt = 255#8 ∧ (((tick k)^[total] c).voices.get v).est = .decay

/-- R230 to R250: the analogue stage of a tick. Both topologies share the voices' values, the routing sums, the noise
floor, the bias, the mix and the volume; every operation is in the order of the rules. -/
def Obligations.AnalogueStageFollowsTheSelectedTopology : Prop :=
  ∀ (k : Cfg) (c : Chip),
    let c' := tick k c
    let a (v : VoiceId) : F32 :=
      fmul (fdiv (i2f (c'.voices.get v).centre.toInt) 0x45000000#32)
        (fadd (fdiv (i2f (c'.voices.get v).cnt.toNat) 0x437F0000#32) c.params.leak)
    let fin : F32 := [VoiceId.v1, .v2, .v3].foldl (fun x v => if flagFilt c v then fadd x (a v) else x) 0#32
    let byp : F32 := [VoiceId.v1, .v2, .v3].foldl
      (fun x v => if flagFilt c v = false ∧ ¬(v = .v3 ∧ flagV3off c = true) then fadd x (a v) else x) 0#32
    let nz : F32 := fmul (fdiv (i2f ((c'.voices.v3.nout.toNat : Int) - 2048)) 0x45000000#32) c.params.snr
    let x : F32 := fadd (fadd fin nz) c.params.dcbias
    let f : F32 := cutoff c
    let s := c.filter
    let sampleOf (fout : F32) : F32 :=
      fmul (fmul (fadd fout byp) (fdiv (i2f (vol4 c).toNat) 0x41700000#32)) c.params.gain
    (flagLadder c = false →
      let qd : F32 := fsub 0x3FC00000#32 (fmul (i2f (res4 c).toNat) 0x3DC00000#32)
      let s0 := fadd s.s0 (fmul f s.s1)
      let s2 := fsub (fsub x s0) (fmul qd s.s1)
      let s1 := fadd s.s1 (fmul f s2)
      let o0 : F32 := if flagLp c then fadd 0#32 s0 else 0#32
      let o1 : F32 := if flagBp c then fadd o0 s1 else o0
      let out : F32 := if flagHp c then fadd o1 s2 else o1
      c'.filter = { s0 := s0, s1 := s1, s2 := s2, s3 := out, s4 := s.s4 } ∧ c'.sample = sampleOf out) ∧
    (flagLadder c = true →
      let kfc := fmul f 0x3F000000#32
      let k2 := fmul kfc kfc
      let k3 := fmul k2 kfc
      let fcr := fadd (fadd (fadd (fmul 0x3FEFBE77#32 k3) (fmul 0x3EFDB22D#32 k2)) (fmul 0xBF2624DD#32 kfc)) 0x3F7FB15B#32
      let acr := fadd (fadd (fmul 0xC07BEDFA#32 k2) (fmul 0x3FEBA29C#32 kfc)) 0x3F7F2E49#32
      let g : F32 := if flt 0x3F800000#32 (fmul f fcr) then 0x3F800000#32 else fmul f fcr
      let kk := fmul (fmul (i2f (res4 c).toNat) 0x3D800000#32) acr
      let u := fsub x (fmul kk s.s4)
      let s0 := fadd s.s0 (fmul g (fsub u s.s0))
      let s1 := fadd s.s1 (fmul g (fsub s0 s.s1))
      let s2 := fadd s.s2 (fmul g (fsub s1 s.s2))
      let s3 := fadd s.s3 (fmul g (fsub s2 s.s3))
      let s4 := fadd s.s4 (fmul g (fsub s3 s.s4))
      let hd := fmul 0x3F000000#32 (fadd s3 s4)
      let ff := fmul c.params.polemix (fadd (fadd s0 s1) s2)
      c'.filter = { s0 := s0, s1 := s1, s2 := s2, s3 := s3, s4 := s4 } ∧ c'.sample = sampleOf (fadd hd ff))

/-- R101, R137, R138, R350: two chips that differ only in reserved registers, reserved bits and the debug flag produce
the same voices, filter, taps and sample in a tick. -/
def Obligations.ReservedBitsDoNotReachATick : Prop :=
  ∀ (k : Cfg) (c b : Chip), c.voices = b.voices → c.params = b.params → c.filter = b.filter →
    (∀ a : Fin 32, c.regs[a] &&& ~~~(unreadBits a.val) = b.regs[a] &&& ~~~(unreadBits a.val)) →
      (tick k c).voices = (tick k b).voices ∧ (tick k c).filter = (tick k b).filter
        ∧ (tick k c).sample = (tick k b).sample ∧ (tick k c).params = (tick k b).params
        ∧ (tick k c).regs[0x1B] = (tick k b).regs[0x1B] ∧ (tick k c).regs[0x1C] = (tick k b).regs[0x1C]

/-- R12, R231: the result of a binary32 operation on finite operands, where finite, is a binary32 value nearest to the
exact result, and of two nearest ones the even one. R12: `i2f` is exact for `|n| ≤ 2^24`. R308: `f2i` of a finite value is
the nearest integer, of two nearest ones the even one. The comparisons of finite values are those of the numbers. -/
def Obligations.FloatOperationsRoundToNearestEven : Prop :=
  (∀ (a b r : F32) (exact : ℚ), isFinite a = true → isFinite b = true → isFinite r = true →
    ((r = fadd a b ∧ exact = f32Value a + f32Value b) ∨ (r = fsub a b ∧ exact = f32Value a - f32Value b)
      ∨ (r = fmul a b ∧ exact = f32Value a * f32Value b)
      ∨ (r = fdiv a b ∧ f32Value b ≠ 0 ∧ exact = f32Value a / f32Value b)) →
    ∀ y : F32, isFinite y = true →
      |f32Value r - exact| ≤ |f32Value y - exact|
        ∧ (|f32Value r - exact| = |f32Value y - exact| → f32Value y ≠ f32Value r → r[0] = false)) ∧
  (∀ n : ℤ, |n| ≤ 2 ^ 24 → isFinite (i2f n) = true ∧ f32Value (i2f n) = n) ∧
  (∀ x : F32, isFinite x = true →
    |(f2i x : ℚ) - f32Value x| ≤ 1 / 2 ∧ (|(f2i x : ℚ) - f32Value x| = 1 / 2 → f2i x % 2 = 0)) ∧
  (∀ a b : F32, isFinite a = true → isFinite b = true →
    (flt a b = true ↔ f32Value a < f32Value b) ∧ (fle a b = true ↔ f32Value a ≤ f32Value b))

/-! ### Events and the VoiceManager -/

/-- R264, R266: NOTE_ON and NOTE_OFF edit the key map and nothing else; no chip register is written and no voice is
assigned. R373: a NOTE_ON and a NOTE_OFF of a key that was up, with no CLK between, leave the key map as it was, and so do
a NOTE_OFF and a NOTE_ON of a key that was down; only `keyvel` of the key differs. -/
def Obligations.NoteEventsEditTheKeyMapOnly : Prop :=
  (∀ (s : State) (a m : Chip) (key : Key) (vel : Velocity), PairOf s a m →
    exec (.noteOn key vel) s =
      .next { s with
        vm := { s.vm with
          keymap := s.vm.keymap.set key.toNat true key.isLt
          keyvel := s.vm.keyvel.set key.toNat vel key.isLt }
        rsp := [.ok 0#32] }
    ∧ exec (.noteOff key vel) s =
      .next { s with vm := { s.vm with keymap := s.vm.keymap.set key.toNat false key.isLt }, rsp := [.ok 0#32] }) ∧
  (∀ (s : State) (a m : Chip) (key : Key) (vel vel' : Velocity), PairOf s a m →
    (s.vm.isDown key = false → ∃ t u, exec (.noteOn key vel) s = .next t ∧ exec (.noteOff key vel') t = .next u
      ∧ u = { s with vm := { s.vm with keyvel := s.vm.keyvel.set key.toNat vel key.isLt }, rsp := [.ok 0#32] }) ∧
    (s.vm.isDown key = true → ∃ t u, exec (.noteOff key vel') s = .next t ∧ exec (.noteOn key vel) t = .next u
      ∧ u = { s with vm := { s.vm with keyvel := s.vm.keyvel.set key.toNat vel key.isLt }, rsp := [.ok 0#32] }))

/-- R281: controllers 0 to 29. The VoiceManager's own registers and the taps have no direct effect, pulse width and
cutoff go to the shadows, a control byte keeps the shadow's gate, the other registers are written, and CONTROL loses its
reset bit. -/
def Obligations.AudioControllersKeepTheOwnedRegisters : Prop :=
  ∀ (s : State) (a m : Chip) (val : BitVec 14), PairOf s a m →
    let b : Byte := val.extractLsb' 0 8
    let written (r : Fin 32) (d : Byte) : Chip := { a with regs := a.regs.set r.val d r.isLt }
    (∀ i ∈ [0#7, 1#7, 7#7, 8#7, 14#7, 15#7, 27#7, 28#7],
      exec (.ctrlChange i val) s = .next (s.eventDone s.vm a m)) ∧
    (∀ x ∈ [(VoiceId.v1, 2#7), (.v2, 9#7), (.v3, 16#7)],
      exec (.ctrlChange x.2 val) s = .next (s.eventDone (s.vm.setVoice x.1 { s.vm.voice x.1 with
        pwBase := ((s.vm.voice x.1).pwBase &&& 0xF00#12) ||| b.setWidth 12 }) a m)) ∧
    (∀ x ∈ [(VoiceId.v1, 3#7), (.v2, 10#7), (.v3, 17#7)],
      exec (.ctrlChange x.2 val) s = .next (s.eventDone (s.vm.setVoice x.1 { s.vm.voice x.1 with
        pwBase := ((s.vm.voice x.1).pwBase &&& 0x0FF#12) ||| (b.setWidth 12 <<< 8) }) a m)) ∧
    (∀ x ∈ [(VoiceId.v1, 4#7, (0x04 : Fin 32)), (.v2, 11#7, 0x0B), (.v3, 18#7, 0x12)],
      let d : Byte := (b &&& 0xFE#8) ||| ((s.vm.voice x.1).actrl &&& 0x01#8)
      exec (.ctrlChange x.2.1 val) s =
        .next (s.eventDone (s.vm.setVoice x.1 { s.vm.voice x.1 with actrl := d }) (written x.2.2 d) m)) ∧
    (∀ x ∈ [(5#7, (0x05 : Fin 32)), (6#7, 0x06), (12#7, 0x0C), (13#7, 0x0D), (19#7, 0x13), (20#7, 0x14), (23#7, 0x17),
        (24#7, 0x18), (25#7, 0x19), (26#7, 0x1A)],
      exec (.ctrlChange x.1 val) s = .next (s.eventDone s.vm (written x.2 b) m)) ∧
    exec (.ctrlChange 21#7 val) s = .next (s.eventDone { s.vm with
      fcBase := (s.vm.fcBase &&& 0x7F8#11) ||| (b &&& 0x07#8).setWidth 11 } a m) ∧
    exec (.ctrlChange 22#7 val) s = .next (s.eventDone { s.vm with
      fcBase := (s.vm.fcBase &&& 0x007#11) ||| (b.setWidth 11 <<< 3) } a m) ∧
    exec (.ctrlChange 29#7 val) s = .next (s.eventDone s.vm (written 0x1D (b &&& 0x7F#8)) m)

/-- R282: controllers 30 to 59 write the modulation chip's registers; the taps are not written and CONTROL loses its
reset bit. -/
def Obligations.ModulationControllersWriteTheRegister : Prop :=
  ∀ (s : State) (a m : Chip) (val : BitVec 14), PairOf s a m →
    let b : Byte := val.extractLsb' 0 8
    (∀ r : Fin 32, r.val ≤ 0x1A → exec (.ctrlChange (BitVec.ofNat 7 (30 + r.val)) val) s =
      .next (s.eventDone s.vm a { m with regs := m.regs.set r.val b r.isLt })) ∧
    exec (.ctrlChange 57#7 val) s = .next (s.eventDone s.vm a m) ∧
    exec (.ctrlChange 58#7 val) s = .next (s.eventDone s.vm a m) ∧
    exec (.ctrlChange 59#7 val) s =
      .next (s.eventDone s.vm a { m with regs := m.regs.set 0x1D (b &&& 0x7F#8) })

/-- R283, R271: controller 60. The same mode has no effect; another one frees the three voices (clearing every gate that
is set, in the shadow and in the register), forgets the tracked keys, puts the arpeggiator at rest and keeps the key
map. -/
def Obligations.KeyModeChangeFreesEveryVoice : Prop :=
  ∀ (s : State) (a m : Chip) (val : BitVec 14) (mode : KeyMode), PairOf s a m →
    mode.code.toNat = min val.toNat 4 →
    (mode = s.vm.keymode → exec (.ctrlChange 60#7 val) s = .next (s.eventDone s.vm a m)) ∧
    (mode ≠ s.vm.keymode →
      ∃ (vm : VoiceManager) (a' : Chip), exec (.ctrlChange 60#7 val) s = .next (s.eventDone vm a' m)
        ∧ vm = { s.vm with
            voices := s.vm.voices.mapVoice fun _ p => { p with vkey := none, actrl := p.actrl &&& 0xFE#8 }
            known := Vector.replicate 128 false
            arpLen := 0, arpIdx := 0, arpCnt := 0#32, arpKey := none, arpPending := false, keymode := mode }
        ∧ a' = { a with regs := a'.regs }
        ∧ (∀ x ∈ [(VoiceId.v1, (0x04 : Fin 32)), (.v2, 0x0B), (.v3, 0x12)],
            a'.regs[x.2] = if (s.vm.voice x.1).actrl[0] then (s.vm.voice x.1).actrl &&& 0xFE#8 else a.regs[x.2])
        ∧ ∀ r : Fin 32, r ≠ 0x04 → r ≠ 0x0B → r ≠ 0x12 → a'.regs[r] = a.regs[r])

/-- R284 to R288, R297 to R299: controllers 61 to 95 write one field of the VoiceManager each. -/
def Obligations.ManagerControllersWriteOneField : Prop :=
  ∀ (s : State) (a m : Chip) (val : BitVec 14), PairOf s a m →
    let done (vm : VoiceManager) : Host.Outcome State Fault Refusal := .next (s.eventDone vm a m)
    let centred : F32 := i2f ((val.toNat : Int) - 8192)
    let unit : F32 := fdiv (i2f val.toNat) 0x467FFC00#32
    exec (.ctrlChange 61#7 val) s = done { s.vm with split := BitVec.ofNat 7 (min val.toNat 127) } ∧
    (∀ x ∈ [(VoiceId.v1, 62#7), (.v2, 63#7), (.v3, 64#7)], exec (.ctrlChange x.2 val) s =
      done (s.vm.setVoice x.1 { s.vm.voice x.1 with glideN := BitVec.ofNat 32 (16 * val.toNat) })) ∧
    (∀ x ∈ [(VoiceId.v1, 65#7), (.v2, 66#7), (.v3, 67#7)], exec (.ctrlChange x.2 val) s =
      done (s.vm.setVoice x.1 { s.vm.voice x.1 with tune := fadd 0x3F800000#32 (fmul centred 0x37000000#32) })) ∧
    (∀ x ∈ [(VoiceId.v1, 68#7), (.v2, 69#7), (.v3, 70#7)], exec (.ctrlChange x.2 val) s =
      done (s.vm.setVoice x.1 { s.vm.voice x.1 with
        transpose := BitVec.ofInt 8 ((min val.toNat 48 : Nat) - 24) })) ∧
    exec (.ctrlChange 71#7 val) s = done { s.vm with arpRate := BitVec.ofNat 32 (16 * (val.toNat + 1)) } ∧
    exec (.ctrlChange 72#7 val) s = done { s.vm with arpRetrig := decide (val ≠ 0#14) } ∧
    exec (.ctrlChange 73#7 val) s = done { s.vm with arpScan := decide (val ≠ 0#14) } ∧
    (∀ bit : Fin 17, ∃ r : BitVec 17, exec (.ctrlChange (BitVec.ofNat 7 (74 + bit.val)) val) s =
        done { s.vm with routes := r } ∧ r[bit] = decide (val ≠ 0#14) ∧
        ∀ j : Fin 17, j ≠ bit → r[j] = s.vm.routes[j]) ∧
    exec (.ctrlChange 91#7 val) s = done { s.vm with depthPw := unit } ∧
    exec (.ctrlChange 92#7 val) s = done { s.vm with depthF := unit } ∧
    exec (.ctrlChange 93#7 val) s = done { s.vm with depthFc := unit } ∧
    exec (.ctrlChange 94#7 val) s = done { s.vm with touch := unit } ∧
    exec (.ctrlChange 95#7 val) s = done { s.vm with pitch := fmul centred 0x39000000#32 } ∧
    (val = 0#14 → unit = 0x00000000#32) ∧ (val = 16383#14 → unit = 0x3F800000#32)

/-- R286, R299, R302: the fine tune and the global pitch of a controller value are exact; the touch scale is 1.0 for touch
0.0 and `vel / 127` for touch 1.0. -/
def Obligations.TunePitchAndTouchValues : Prop :=
  (∀ val : BitVec 14,
    f32Value (tuneOfVal val) = 1 + ((val.toNat : ℚ) - 8192) / 2 ^ 17
      ∧ f32Value (pitchOfVal val) = ((val.toNat : ℚ) - 8192) / 2 ^ 13) ∧
  (∀ (touch : F32) (vel : Velocity),
    touchScale touch vel =
        fadd (fsub 0x3F800000#32 touch) (fmul touch (fdiv (i2f vel.toNat) 0x42FE0000#32))
      ∧ touchScale 0x00000000#32 vel = 0x3F800000#32
      ∧ touchScale 0x3F800000#32 vel = fdiv (i2f vel.toNat) 0x42FE0000#32)

/-- R290 to R292: the frequency table is the equal temperament rounded to the nearest millihertz, `B(k)` its register
value at a clock rate, and the semitone table holds the binary32 nearest to each ratio, an octave being a factor of 2. -/
def Obligations.KeyAndSemitoneTables : Prop :=
  (∀ key : Key, (2 * ftabMHz key - 1) ^ 12 * 2 ^ 69 ≤ (2 * 440000) ^ 12 * 2 ^ key.toNat
    ∧ (2 * 440000) ^ 12 * 2 ^ key.toNat ≤ (2 * ftabMHz key + 1) ^ 12 * 2 ^ 69) ∧
  (∀ (key : Key) (clk : BitVec 24), ((keyFreq key clk).toNat : Int) =
    min 65535 ⌊(2 * (ftabMHz key : ℚ) * 2 ^ 24 + 1000 * clk.toNat) / (2000 * (clk.toNat : ℚ))⌋) ∧
  (∀ r : Fin 12, ∃ q : Nat, f32Value (semi (BitVec.ofNat 8 r.val)) = (q : ℚ) / 2 ^ 23
    ∧ (2 * q - 1) ^ 12 ≤ 2 ^ r.val * (2 ^ 24) ^ 12 ∧ 2 ^ r.val * (2 ^ 24) ^ 12 ≤ (2 * q + 1) ^ 12) ∧
  (∀ t : Fin 37, f32Value (semi (BitVec.ofInt 8 ((t.val : Int) - 24 + 12))) =
    2 * f32Value (semi (BitVec.ofInt 8 ((t.val : Int) - 24))))

/-- R271, R272: `Free(v)` forgets the key and, when the gate is set, clears it in the shadow and in the audio chip's
control register, and leaves the frequency where it is; `Assign(v, k)` records key and velocity, computes the target,
snaps or starts a glide, and opens the gate when it is closed; a gate already open writes no register. -/
def Obligations.FreeAndAssignMoveTheGate : Prop :=
  (∀ (e : Engine) (x : VoiceId × Fin 32), x ∈ [(VoiceId.v1, (0x04 : Fin 32)), (.v2, 0x0B), (.v3, 0x12)] →
    let p := e.vm.voice x.1
    freeVoice e x.1 =
      { vm := e.vm.setVoice x.1 { p with vkey := none, actrl := p.actrl &&& 0xFE#8 }
        audio := if p.actrl[0] then { e.audio with regs := e.audio.regs.set x.2.val (p.actrl &&& 0xFE#8) x.2.isLt }
          else e.audio
        modulation := e.modulation }) ∧
  (∀ (k : Cfg) (e : Engine) (key : Key) (x : VoiceId × Fin 32),
    x ∈ [(VoiceId.v1, (0x04 : Fin 32)), (.v2, 0x0B), (.v3, 0x12)] →
    let p := e.vm.voice x.1
    let vel := e.vm.velOf key
    let tgt := fmul (fmul (i2f (keyFreq key e.audio.params.clkHz).toNat) p.tune) (semi p.transpose)
    let q : PolicyVoice := { p with vkey := some key, vvel := vel, ftgt := tgt, actrl := p.actrl ||| 0x01#8 }
    let q' : PolicyVoice := if p.glideN = 0#32 then { q with fcur := tgt, gleft := 0#32, gmul := 0x3F800000#32 }
      else { q with gmul := glideMul k.glide (fdiv tgt p.fcur) p.glideN.toNat, gleft := p.glideN }
    assignVoice k e x.1 key =
      { vm := { e.vm.setVoice x.1 q' with lastvel := vel }
        audio := if p.actrl[0] then e.audio
          else { e.audio with regs := e.audio.regs.set x.2.val (p.actrl ||| 0x01#8) x.2.isLt }
        modulation := e.modulation })

/-- R296: every instance of `GlideMul` gives, for a finite positive ratio, a finite positive multiplier, not below 1.0 for
a ratio not below 1.0 and not above 1.0 for a ratio not above 1.0. -/
def Obligations.GlideMultipliersMeetTheirContract : Prop :=
  ∀ (i : GlideInstance) (r : F32) (n : Nat), isFinite r = true → 0 < f32Value r → 1 ≤ n →
    isFinite (glideMul i r n) = true ∧ 0 < f32Value (glideMul i r n)
      ∧ (1 ≤ f32Value r → 1 ≤ f32Value (glideMul i r n)) ∧ (f32Value r ≤ 1 → f32Value (glideMul i r n) ≤ 1)

/-- R295: one tick of a glide multiplies the frequency by the multiplier, puts it on the target when it has passed it in
the direction of the multiplier or when no tick is left, and counts the tick; a voice that is not gliding does not change;
the three voices make this step and nothing else of the VoiceManager changes. Section 8 property P3: a glide lands on its
target exactly after the ticks it has left, is never past the target on the way, and then stands still. -/
def Obligations.AGlideLandsOnItsTarget : Prop :=
  (∀ p : PolicyVoice,
    (p.gleft = 0#32 → glideVoice p = p) ∧
    (p.gleft ≠ 0#32 →
      let f := fmul p.fcur p.gmul
      glideVoice p =
        { p with
          fcur := if p.gleft = 1#32 ∨ (fle 0x3F800000#32 p.gmul = true ∧ flt p.ftgt f = true)
              ∨ (fle p.gmul 0x3F800000#32 = true ∧ flt f p.ftgt = true) then p.ftgt else f
          gleft := p.gleft - 1#32 })) ∧
  (∀ m : VoiceManager, glideStep m = { m with voices := (glideStep m).voices }
    ∧ ∀ v, (glideStep m).voice v = glideVoice (m.voice v)) ∧
  ∀ p : PolicyVoice, 0 < p.gleft.toNat →
    (∀ n, n ≤ p.gleft.toNat → (glideVoice^[n] p).gleft.toNat = p.gleft.toNat - n
      ∧ glideVoice^[n] p = { p with fcur := (glideVoice^[n] p).fcur, gleft := (glideVoice^[n] p).gleft }) ∧
    (∀ n, 0 < n → n ≤ p.gleft.toNat → pastTarget p.gmul (glideVoice^[n] p).fcur p.ftgt = false) ∧
    (∀ n, p.gleft.toNat ≤ n → (glideVoice^[n] p).fcur = p.ftgt ∧ (glideVoice^[n] p).gleft = 0#32)

/-- R273 to R277: the voice a pressed key takes, by key mode; and the voices a released key frees, with everything a
release changes: in Mono all three when voice 1 plays the key, in Poly1 and Poly2 each that plays it, in Poly3 and Poly4
voices 1 and 3 where they play it, for a key of the polyphonic zone; no other voice and no other register. -/
def Obligations.PressAndReleaseFollowTheKeyModePolicy : Prop :=
  (∀ (c : Cfg) (e : Engine) (k : Key),
    (e.vm.keymode = .mono →
      press c e k = assignVoice c (assignVoice c (assignVoice c e .v1 k) .v2 k) .v3 k) ∧
    (∀ v, e.vm.keymode = .poly1 ∨ e.vm.keymode = .poly2 → (e.vm.voice v).vkey = none →
      (∀ u, voiceIndex u < voiceIndex v → (e.vm.voice u).vkey ≠ none) → press c e k = assignVoice c e v k) ∧
    (∀ u v w ku kv kw, e.vm.keymode = .poly1 ∨ e.vm.keymode = .poly2 → u ≠ v → v ≠ w → u ≠ w →
      (e.vm.voice u).vkey = some ku → (e.vm.voice v).vkey = some kv → (e.vm.voice w).vkey = some kw →
      ku.toNat < kv.toNat → kv.toNat < kw.toNat → press c e k = assignVoice c e v k) ∧
    ((e.vm.keymode = .poly3 ∧ k.toNat < e.vm.split.toNat ∨ e.vm.keymode = .poly4 ∧ e.vm.split.toNat ≤ k.toNat) →
      press c e k = e) ∧
    ((e.vm.keymode = .poly3 ∧ e.vm.split.toNat ≤ k.toNat ∨ e.vm.keymode = .poly4 ∧ k.toNat < e.vm.split.toNat) →
      ((e.vm.voice .v1).vkey = none → press c e k = assignVoice c e .v1 k) ∧
      ((e.vm.voice .v1).vkey ≠ none → (e.vm.voice .v3).vkey = none → press c e k = assignVoice c e .v3 k) ∧
      (∀ k1 k3, (e.vm.voice .v1).vkey = some k1 → (e.vm.voice .v3).vkey = some k3 →
        press c e k = assignVoice c e
          (if |(k1.toNat : Int) - k.toNat| ≤ |(k3.toNat : Int) - k.toNat| then .v1 else .v3) k))) ∧
  (∀ (e : Engine) (k : Key),
    let e' := release e k
    let plays (v : VoiceId) : Bool := decide ((e.vm.voice v).vkey = some k)
    let freed (v : VoiceId) : Bool := match e.vm.keymode with
      | .mono => plays .v1
      | .poly1 => plays v
      | .poly2 => plays v
      | .poly3 => decide (e.vm.split.toNat ≤ k.toNat) && decide (v ≠ .v2) && plays v
      | .poly4 => decide (k.toNat < e.vm.split.toNat) && decide (v ≠ .v2) && plays v
    let policy (v : VoiceId) (p : PolicyVoice) : PolicyVoice :=
      if freed v then { p with vkey := none, actrl := p.actrl &&& 0xFE#8 } else p
    e' = { vm := { e.vm with voices := e.vm.voices.mapVoice policy }
           audio := { e.audio with regs := e'.audio.regs }
           modulation := e.modulation }
      ∧ (∀ x ∈ [(VoiceId.v1, (0x04 : Fin 32)), (.v2, 0x0B), (.v3, 0x12)],
          e'.audio.regs[x.2] = if freed x.1 = true ∧ (e.vm.voice x.1).actrl[0] = true then (e.vm.voice x.1).actrl &&& 0xFE#8
            else e.audio.regs[x.2])
      ∧ ∀ r : Fin 32, r ≠ 0x04 → r ≠ 0x0B → r ≠ 0x12 → e'.audio.regs[r] = e.audio.regs[r])

/-- R270: a scan handles the releases of tracked keys, then the presses of keys not tracked, each in ascending order,
then, in Poly1 and Poly2 after a release, the re-scan; afterwards exactly the keys that are down are tracked.
R278: the re-scan gives the tracked keys that no voice plays, in ascending order, to the free voices, the lowest-numbered
first, until keys or voices run out.
R279, section 8 property P4: in Poly1 and Poly2, from a state with no key tracked and no voice in use, a scan that
finds at least three keys down leaves the three voices with three distinct keys that are down. -/
def Obligations.ScanTracksAndAssignsTheKeys : Prop :=
  (∀ (c : Cfg) (e : Engine),
    let track (e : Engine) (k : Key) (b : Bool) : Engine :=
      { e with vm := { e.vm with known := e.vm.known.set k.toNat b k.isLt } }
    let released := allKeys.filter fun k => e.vm.isKnown k && !e.vm.isDown k
    let pressed := allKeys.filter fun k => e.vm.isDown k && !e.vm.isKnown k
    let e1 := released.foldl (fun e k => release (track e k false) k) e
    let e2 := pressed.foldl (fun e k => press c (track e k true) k) e1
    scan c e = (if released ≠ [] ∧ (e.vm.keymode = .poly1 ∨ e.vm.keymode = .poly2) then rescan c e2 else e2)
      ∧ (scan c e).vm.keymap = e.vm.keymap ∧ ∀ k, (scan c e).vm.isKnown k = e.vm.isDown k) ∧
  (∀ (c : Cfg) (e : Engine),
    let free := [VoiceId.v1, .v2, .v3].filter fun v => decide ((e.vm.voice v).vkey = none)
    let waiting := allKeys.filter fun k =>
      e.vm.isKnown k && [VoiceId.v1, .v2, .v3].all fun v => decide ((e.vm.voice v).vkey ≠ some k)
    rescan c e = (free.zip waiting).foldl (fun e x => assignVoice c e x.1 x.2) e) ∧
  (∀ (c : Cfg) (e : Engine), e.vm.keymode = .poly1 ∨ e.vm.keymode = .poly2 →
    (∀ k, e.vm.isKnown k = false) → (∀ v, (e.vm.voice v).vkey = none) →
    3 ≤ (allKeys.filter e.vm.isDown).length →
      let e' := scan c e
      (∃ k1 k2 k3, (e'.vm.voice .v1).vkey = some k1 ∧ (e'.vm.voice .v2).vkey = some k2
        ∧ (e'.vm.voice .v3).vkey = some k3 ∧ k1 ≠ k2 ∧ k2 ≠ k3 ∧ k1 ≠ k3
        ∧ e.vm.isDown k1 = true ∧ e.vm.isDown k2 = true ∧ e.vm.isDown k3 = true))

/-- R301 to R308: `EvalRoutes` writes the fourteen frequency, pulse-width and cutoff registers of the audio chip from the
modulation chip's taps, the routes, the depths, the touch and the pitch, and nothing else. -/
def Obligations.RoutesWriteFourteenRegisters : Prop :=
  ∀ e : Engine,
    let e' := evalRoutes e
    let m := e.vm
    let lfo : F32 := fdiv (i2f (((e.modulation.regs[0x1B]).toNat : Int) - 128)) 0x43000000#32
    let env : F32 := fdiv (i2f (e.modulation.regs[0x1C]).toNat) 0x437F0000#32
    let md (bl be : Fin 17) (ts : F32) : F32 :=
      let x : F32 := if m.routes[bl] then
        fadd 0#32 (fmul lfo (if m.routes[14] then ts else 0x3F800000#32)) else 0#32
      if m.routes[be] then fadd x (fmul env (if m.routes[15] then ts else 0x3F800000#32)) else x
    let bend : F32 := if m.routes[16] then m.pitch else 0#32
    e' = { e with audio := { e.audio with regs := e'.audio.regs } }
      ∧ (∀ r : Fin 32, r.val ∉ [0x00, 0x01, 0x02, 0x03, 0x07, 0x08, 0x09, 0x0A, 0x0E, 0x0F, 0x10, 0x11, 0x15, 0x16] →
          e'.audio.regs[r] = e.audio.regs[r])
      ∧ (∀ x ∈ [(VoiceId.v1, (0 : Fin 17), (3 : Fin 17), (7 : Fin 17), (10 : Fin 17), (0x03 : Fin 32)),
            (.v2, 1, 4, 8, 11, 0x0A), (.v3, 2, 5, 9, 12, 0x11)],
          let p := m.voice x.1
          let ts := touchScale m.touch p.vvel
          let bits : Fin 17 × Fin 17 × Fin 17 × Fin 17 :=
            if m.keymode = .poly1 then (0, 3, 7, 10) else (x.2.1, x.2.2.1, x.2.2.2.1, x.2.2.2.2.1)
          let mpw := md bits.1 bits.2.2.1 ts
          let mf := md bits.2.1 bits.2.2.2 ts
          let factor := fadd (fadd 0x3F800000#32 (fmul m.depthF mf)) (fmul bend 0x3E000000#32)
          ((freq16 e'.audio x.1).toNat : Int) = max 0 (min 65535 (f2i (fmul p.fcur factor)))
            ∧ ((pw12 e'.audio x.1).toNat : Int) =
              max 0 (min 4095 (p.pwBase.toNat + f2i (fmul (fmul m.depthPw mpw) 0x45000000#32)))
            ∧ (e'.audio.regs[x.2.2.2.2.2]).toNat < 16)
      ∧ ((fc11 e'.audio).toNat : Int) = max 0 (min 2047
          (m.fcBase.toNat + f2i (fmul (fmul m.depthFc (md 6 13 (touchScale m.touch m.lastvel))) 0x44800000#32)))
      ∧ (e'.audio.regs[0x15]).toNat < 8

/-- R310 to R313, R315: one arpeggiator update, on the whole engine. The table holds the tracked keys of the zone in
ascending order up to its capacity; an empty table puts the arpeggiator at rest and frees voice 2 when it was playing;
a step is due when the counter has run out: it moves to the next table entry, scans the waveform exactly when `arp_scan`
is set, and then, with retrigger on a sounding voice, closes the gate (in the shadow, and in register `0x0B` when it was
open) and owes the note, or else assigns it at once. Nothing else changes.
R314: wave scanning rotates the waveform bits pulse, ramp and triangle of voice 2 left by one and writes the control
register; the noise bit and the low nibble stay. -/
def Obligations.ArpeggiatorUpdateWalksItsTable : Prop :=
  (∀ (c : Cfg) (e : Engine),
    let zone (k : Key) : Bool :=
      if e.vm.keymode = .poly3 then decide (k.toNat < e.vm.split.toNat) else decide (e.vm.split.toNat ≤ k.toNat)
    let ks := (allKeys.filter fun k => e.vm.isKnown k && zone k).take e.vm.arp.length
    let table : Engine :=
      { e with vm := { e.vm with arp := ks ++ e.vm.arp.drop ks.length, arpLen := ks.length } }
    let counted (x : Engine) (n : BitVec 32) : Engine := { x with vm := { x.vm with arpCnt := n } }
    (e.vm.keymode = .mono ∨ e.vm.keymode = .poly1 ∨ e.vm.keymode = .poly2 → arpUpdate c e = e) ∧
    (e.vm.keymode = .poly3 ∨ e.vm.keymode = .poly4 →
      (ks = [] →
        let f : Engine := if e.vm.arpKey = none then table else freeVoice table .v2
        arpUpdate c e =
          { f with vm := { f.vm with arpKey := none, arpIdx := 0, arpCnt := 0#32, arpPending := false } }) ∧
      (ks ≠ [] → 0 < e.vm.arpCnt.toInt →
        arpUpdate c e = counted table (e.vm.arpCnt - BitVec.ofNat 32 c.blockSize)) ∧
      (ks ≠ [] → e.vm.arpCnt.toInt ≤ 0 →
        let idx := if e.vm.arpKey = none then 0 else (e.vm.arpIdx + 1) % ks.length
        let cnt := e.vm.arpCnt + BitVec.ofNat 32 (max e.vm.arpRate.toNat c.blockSize) - BitVec.ofNat 32 c.blockSize
        ∃ k, ks[idx]? = some k ∧
          let moved : Engine := { table with vm := { table.vm with arpIdx := idx, arpKey := some k } }
          let g : Engine := if e.vm.arpScan then waveScan moved else moved
          let p := g.vm.voice .v2
          (e.vm.arpRetrig = true ∧ (e.vm.voice .v2).vkey ≠ none →
            arpUpdate c e = counted
              { vm := { g.vm.setVoice .v2 { p with actrl := p.actrl &&& 0xFE#8 } with arpPending := true }
                audio := if p.actrl[0] then { g.audio with regs := g.audio.regs.set 0x0B (p.actrl &&& 0xFE#8) } else g.audio
                modulation := g.modulation } cnt) ∧
          (e.vm.arpRetrig = false ∨ (e.vm.voice .v2).vkey = none →
            arpUpdate c e = counted (assignVoice c g .v2 k) cnt)))) ∧
  (∀ e : Engine,
    let p := e.vm.voice .v2
    ∃ w : Byte, waveScan e =
        { vm := e.vm.setVoice .v2 { p with actrl := w }
          audio := { e.audio with regs := e.audio.regs.set 0x0B w }
          modulation := e.modulation }
      ∧ w[5] = p.actrl[4] ∧ w[6] = p.actrl[5] ∧ w[4] = p.actrl[6] ∧ w[7] = p.actrl[7]
      ∧ w.extractLsb' 0 4 = p.actrl.extractLsb' 0 4)

/-! ### The engine clock -/

/-- R265, R268: on a live pair CLK completes with one sample for each tick of the block, the last being the audio chip's.
It changes only the two chips of the pair and the VoiceManager; of the modulation chip no register but the taps; of the
audio chip no register but the taps and those the VoiceManager owns (frequency, pulse width, control, cutoff); no analogue
parameter; and not the key map, the velocities or any controller value. -/
def Obligations.ClockProducesOneBlock : Prop :=
  ∀ (s : State) (a m : Chip), s.cfg.wf → PairOf s a m →
    ∃ (t : State) (l : List F32) (a' m' : Chip), exec .clk s = .next t
      ∧ l.length = s.cfg.blockSize ∧ t.rsp = l.map .ok ∧ l.getLast? = some a'.sample
      ∧ t.pool = (s.pool.set 0 (some a')).set 1 (some m') ∧ t.cfg = s.cfg ∧ t.port = s.port
      ∧ (∀ r : Fin 32, r.val ≠ 0x1B → r.val ≠ 0x1C → m'.regs[r] = m.regs[r])
      ∧ (∀ r : Fin 32,
          r.val ∈ [0x05, 0x06, 0x0C, 0x0D, 0x13, 0x14, 0x17, 0x18, 0x19, 0x1A, 0x1D, 0x1E, 0x1F] → a'.regs[r] = a.regs[r])
      ∧ m'.params = m.params ∧ a'.params = a.params
      ∧ t.vm.keymap = s.vm.keymap ∧ t.vm.keyvel = s.vm.keyvel ∧ t.vm.routes = s.vm.routes
      ∧ t.vm.depthPw = s.vm.depthPw ∧ t.vm.depthF = s.vm.depthF ∧ t.vm.depthFc = s.vm.depthFc
      ∧ t.vm.touch = s.vm.touch ∧ t.vm.pitch = s.vm.pitch ∧ t.vm.fcBase = s.vm.fcBase ∧ t.vm.split = s.vm.split
      ∧ t.vm.keymode = s.vm.keymode ∧ t.vm.arpRate = s.vm.arpRate ∧ t.vm.arpRetrig = s.vm.arpRetrig
      ∧ t.vm.arpScan = s.vm.arpScan
      ∧ ∀ v, (t.vm.voice v).tune = (s.vm.voice v).tune ∧ (t.vm.voice v).transpose = (s.vm.voice v).transpose
        ∧ (t.vm.voice v).glideN = (s.vm.voice v).glideN ∧ (t.vm.voice v).pwBase = (s.vm.voice v).pwBase

/-- R265: the schedule of a CLK. After the scan and the arpeggiator, each sub-block evaluates the routes, runs 16 pairs
of ticks (glide, then chip `M`, then chip `A`) and plays an owed note; response `16 * j + i` is the sample of tick `i` of
sub-block `j`. R315: an owed note is assigned to voice 2 and the debt is cleared; with nothing owed nothing changes. -/
def Obligations.ClockFollowsItsSchedule : Prop :=
  (∀ (k : Cfg) (e : Engine),
    (e.vm.arpPending = false → arpOwed k e = e) ∧
    (∀ key, e.vm.arpPending = true → e.vm.arpKey = some key →
      let f := assignVoice k e .v2 key
      arpOwed k e = { f with vm := { f.vm with arpPending := false } })) ∧
  (∀ (s : State) (a m : Chip), s.cfg.wf → PairOf s a m →
    let k := s.cfg
    let pair (e : Engine) : Engine :=
      { vm := glideStep e.vm, audio := tick k e.audio, modulation := tick k e.modulation }
    let sub (e : Engine) : Engine := arpOwed k (pair^[16] (evalRoutes e))
    let start : Engine := arpUpdate k (scan k { vm := s.vm, audio := a, modulation := m })
    ∃ t : State, exec .clk s = .next t
      ∧ t = { s.withEngine (sub^[k.blockSize / 16] start) with rsp := t.rsp }
      ∧ ∀ j i, j < k.blockSize / 16 → i < 16 →
        t.rsp[16 * j + i]? = some (.ok (pair^[i + 1] (evalRoutes (sub^[j] start))).audio.sample))

/-! ### Invariants -/

/-- The state after reset is well-formed. The instantiation is the model's choice (log entries 3 and 4). -/
def Obligations.TheResetStateIsWellFormed : Prop :=
  StateWf State.reset

/-- R22, R27, R29, R44, R140, R147, R187, R222, R279: a well-formed machine stays well-formed in every step, whatever
word the port holds. -/
def Obligations.EveryStepKeepsTheMachineWellFormed : Prop :=
  ∀ s t : State, StateWf s → step s = .next t → StateWf t

/-! ### The two contexts -/

/-- R71, R70, R349, said of the model's own list of moves (log entry 13, DEDUCED: the spec names no field that holds the
interleaving). A context's move hands the oldest word it has issued to the tail of the shared port and changes nothing else;
that a move of a context with nothing issued is used up and changes nothing else is the model's choice (log entry 13), and
so is that of the core with nothing waiting (log entry 11). Over any list of moves, each context's words arrive in its own
order; the port holds the arrived words in arrival order behind those it held; the words performed are the first of them, in
that order; and the state of the core after them is what they give performed one after the other, whatever else waits or
moves. -/
def Obligations.OnlyTheInterleavingOfTheContextsMatters : Prop :=
  (∀ (s : State) (ms : List Move),
    (∀ w rest, s.agents.moves = .arrive .control :: ms → s.agents.control = w :: rest →
      step s = .next { s with port := s.port ++ [w], agents := { s.agents with control := rest, moves := ms } }) ∧
    (∀ w rest, s.agents.moves = .arrive .render :: ms → s.agents.render = w :: rest →
      step s = .next { s with port := s.port ++ [w], agents := { s.agents with render := rest, moves := ms } }) ∧
    (s.agents.moves = .arrive .control :: ms ∧ s.agents.control = []
        ∨ s.agents.moves = .arrive .render :: ms ∧ s.agents.render = [] →
      step s = .next { s with agents := { s.agents with moves := ms } })) ∧
  (∀ s : State,
    let a := s.agents
    let arrived := arrivals a.moves a.control a.render
    wordsOf .control arrived = a.control.take (a.moves.count (.arrive .control))
      ∧ wordsOf .render arrived = a.render.take (a.moves.count (.arrive .render))
      ∧ ∃ (t : State) (done : List CmdWord), Sys2Proof.core.run a.moves.length s = .next t
        ∧ t.agents = { control := a.control.drop (a.moves.count (.arrive .control))
                       render := a.render.drop (a.moves.count (.arrive .render)), moves := [] }
        ∧ done ++ t.port = s.port ++ arrived.map (fun x => x.2)
        ∧ ∀ (p : List CmdWord) (b : Agents), ∃ u, performAll done { s with port := p, agents := b } = .next u
          ∧ t = { u with port := t.port, agents := t.agents })
end

