-- ==== Sys2Proof/Laws/State.lean ====
section
/-! SUPPORT. One lemma for each field under each update of the state, so that no proof unfolds a record update. -/

namespace Sys2Proof

@[simp] theorem PerVoice.get_set_self {α : Type} (p : PerVoice α) (v : VoiceId) (x : α) : (p.set v x).get v = x := by
  cases v <;> rfl

theorem PerVoice.get_set_ne {α : Type} (p : PerVoice α) {v u : VoiceId} (x : α) (h : u ≠ v) :
    (p.set v x).get u = p.get u := by
  cases v <;> cases u <;> first | rfl | exact absurd rfl h

theorem PerVoice.get_set {α : Type} (p : PerVoice α) (v u : VoiceId) (x : α) :
    (p.set v x).get u = if u = v then x else p.get u := by
  cases v <;> cases u <;> rfl

@[simp] theorem PerVoice.get_mapVoice {α β : Type} (f : VoiceId → α → β) (p : PerVoice α) (v : VoiceId) :
    (p.mapVoice f).get v = f v (p.get v) := by
  cases v <;> rfl

theorem PerVoice.ext_get {α : Type} {p q : PerVoice α} (h : ∀ v, p.get v = q.get v) : p = q := by
  cases p; cases q
  simp only [PerVoice.mk.injEq]
  exact ⟨h .v1, h .v2, h .v3⟩

/-- The three named things are the three things by voice. -/
theorem PerVoice.v1_eq_get {α : Type} (p : PerVoice α) : p.v1 = p.get .v1 := rfl
/-- The second thing by voice. -/
theorem PerVoice.v2_eq_get {α : Type} (p : PerVoice α) : p.v2 = p.get .v2 := rfl
/-- The third thing by voice. -/
theorem PerVoice.v3_eq_get {α : Type} (p : PerVoice α) : p.v3 = p.get .v3 := rfl

end Sys2Proof

namespace Sys2Proof.Machine

open Sys2Proof

@[simp] theorem Chip.setReg_voices (c : Chip) (r : Reg) (d : Byte) : (c.setReg r d).voices = c.voices := rfl
@[simp] theorem Chip.setReg_params (c : Chip) (r : Reg) (d : Byte) : (c.setReg r d).params = c.params := rfl
@[simp] theorem Chip.setReg_filter (c : Chip) (r : Reg) (d : Byte) : (c.setReg r d).filter = c.filter := rfl
@[simp] theorem Chip.setReg_sample (c : Chip) (r : Reg) (d : Byte) : (c.setReg r d).sample = c.sample := rfl
@[simp] theorem Chip.setReg_regs (c : Chip) (r : Reg) (d : Byte) :
    (c.setReg r d).regs = c.regs.set r.addr d r.addr_lt := rfl

@[simp] theorem State.setChip_cfg (s : State) (n : Nat) (c : Chip) : (s.setChip n c).cfg = s.cfg := rfl
@[simp] theorem State.setChip_pool (s : State) (n : Nat) (c : Chip) :
    (s.setChip n c).pool = s.pool.set n (some c) := rfl
@[simp] theorem State.setChip_vm (s : State) (n : Nat) (c : Chip) : (s.setChip n c).vm = s.vm := rfl
@[simp] theorem State.setChip_port (s : State) (n : Nat) (c : Chip) : (s.setChip n c).port = s.port := rfl
@[simp] theorem State.setChip_agents (s : State) (n : Nat) (c : Chip) : (s.setChip n c).agents = s.agents := rfl
@[simp] theorem State.setChip_rsp (s : State) (n : Nat) (c : Chip) : (s.setChip n c).rsp = s.rsp := rfl

@[simp] theorem State.killChip_cfg (s : State) (n : Nat) : (s.killChip n).cfg = s.cfg := rfl
@[simp] theorem State.killChip_pool (s : State) (n : Nat) : (s.killChip n).pool = s.pool.set n none := rfl
@[simp] theorem State.killChip_vm (s : State) (n : Nat) : (s.killChip n).vm = s.vm := rfl
@[simp] theorem State.killChip_port (s : State) (n : Nat) : (s.killChip n).port = s.port := rfl
@[simp] theorem State.killChip_agents (s : State) (n : Nat) : (s.killChip n).agents = s.agents := rfl
@[simp] theorem State.killChip_rsp (s : State) (n : Nat) : (s.killChip n).rsp = s.rsp := rfl

@[simp] theorem State.withRsp_cfg (s : State) (r : List Response) : (s.withRsp r).cfg = s.cfg := rfl
@[simp] theorem State.withRsp_pool (s : State) (r : List Response) : (s.withRsp r).pool = s.pool := rfl
@[simp] theorem State.withRsp_vm (s : State) (r : List Response) : (s.withRsp r).vm = s.vm := rfl
@[simp] theorem State.withRsp_port (s : State) (r : List Response) : (s.withRsp r).port = s.port := rfl
@[simp] theorem State.withRsp_agents (s : State) (r : List Response) : (s.withRsp r).agents = s.agents := rfl
@[simp] theorem State.withRsp_rsp (s : State) (r : List Response) : (s.withRsp r).rsp = r := rfl

@[simp] theorem State.withFetchWord_cfg (s : State) (n w : Nat) : (s.withFetchWord n w).cfg = s.cfg := rfl
@[simp] theorem State.withFetchWord_pool (s : State) (n w : Nat) : (s.withFetchWord n w).pool = s.pool := rfl
@[simp] theorem State.withFetchWord_vm (s : State) (n w : Nat) : (s.withFetchWord n w).vm = s.vm := rfl
@[simp] theorem State.withFetchWord_port (s : State) (n w : Nat) :
    (s.withFetchWord n w).port = tableWord n w :: s.port := rfl
@[simp] theorem State.withFetchWord_rsp (s : State) (n w : Nat) : (s.withFetchWord n w).rsp = s.rsp := rfl

@[simp] theorem State.withFetchWord_next (s : State) (n w : Nat) : (s.withFetchWord n w).agents.next = .perform := rfl
@[simp] theorem State.withFetchWord_advance (s : State) (n w : Nat) :
    (s.withFetchWord n w).advance = { s with port := tableWord n w :: s.port } := rfl

@[simp] theorem State.advance_cfg (s : State) : s.advance.cfg = s.cfg := rfl
@[simp] theorem State.advance_pool (s : State) : s.advance.pool = s.pool := rfl
@[simp] theorem State.advance_vm (s : State) : s.advance.vm = s.vm := rfl
@[simp] theorem State.advance_port (s : State) : s.advance.port = s.port := rfl
@[simp] theorem State.advance_rsp (s : State) : s.advance.rsp = s.rsp := rfl
@[simp] theorem State.advance_agents (s : State) : s.advance.agents = s.agents.advance := rfl

@[simp] theorem Agents.advance_control (a : Agents) : a.advance.control = a.control := rfl
@[simp] theorem Agents.advance_render (a : Agents) : a.advance.render = a.render := rfl
@[simp] theorem Agents.advance_moves (a : Agents) : a.advance.moves = a.moves.tail := rfl
@[simp] theorem Agents.advance_issued (a : Agents) (c : Context) : a.advance.issued c = a.issued c := by cases c <;> rfl

@[simp] theorem Agents.setIssued_moves (a : Agents) (c : Context) (ws : List CmdWord) :
    (a.setIssued c ws).moves = a.moves := by cases c <;> rfl
@[simp] theorem Agents.issued_setIssued_self (a : Agents) (c : Context) (ws : List CmdWord) :
    (a.setIssued c ws).issued c = ws := by cases c <;> rfl
theorem Agents.issued_setIssued_ne (a : Agents) {c d : Context} (ws : List CmdWord) (h : d ≠ c) :
    (a.setIssued c ws).issued d = a.issued d := by
  cases c <;> cases d <;> first | rfl | exact absurd rfl h

theorem State.accept_of_nil {s : State} {c : Context} (h : s.agents.issued c = []) : s.accept c = s := by
  simp only [State.accept, h]
theorem State.accept_of_cons {s : State} {c : Context} {w : CmdWord} {rest : List CmdWord}
    (h : s.agents.issued c = w :: rest) :
    s.accept c = { s with port := s.port ++ [w], agents := s.agents.setIssued c rest } := by
  simp only [State.accept, h]

@[simp] theorem State.accept_cfg (s : State) (c : Context) : (s.accept c).cfg = s.cfg := by
  unfold State.accept; split <;> rfl
@[simp] theorem State.accept_pool (s : State) (c : Context) : (s.accept c).pool = s.pool := by
  unfold State.accept; split <;> rfl
@[simp] theorem State.accept_vm (s : State) (c : Context) : (s.accept c).vm = s.vm := by
  unfold State.accept; split <;> rfl
@[simp] theorem State.accept_rsp (s : State) (c : Context) : (s.accept c).rsp = s.rsp := by
  unfold State.accept; split <;> rfl

@[simp] theorem State.withEngine_cfg (s : State) (e : Engine) : (s.withEngine e).cfg = s.cfg := rfl
@[simp] theorem State.withEngine_port (s : State) (e : Engine) : (s.withEngine e).port = s.port := rfl
@[simp] theorem State.withEngine_agents (s : State) (e : Engine) : (s.withEngine e).agents = s.agents := rfl
@[simp] theorem State.withEngine_rsp (s : State) (e : Engine) : (s.withEngine e).rsp = s.rsp := rfl
@[simp] theorem State.withEngine_vm (s : State) (e : Engine) : (s.withEngine e).vm = e.vm := rfl
@[simp] theorem State.withEngine_pool (s : State) (e : Engine) :
    (s.withEngine e).pool = (s.pool.set 0 (some e.audio)).set 1 (some e.modulation) := rfl

@[simp] theorem VoiceManager.setVoice_keymap (m : VoiceManager) (v : VoiceId) (p : PolicyVoice) :
    (m.setVoice v p).keymap = m.keymap := rfl
@[simp] theorem VoiceManager.setVoice_keyvel (m : VoiceManager) (v : VoiceId) (p : PolicyVoice) :
    (m.setVoice v p).keyvel = m.keyvel := rfl
@[simp] theorem VoiceManager.setVoice_known (m : VoiceManager) (v : VoiceId) (p : PolicyVoice) :
    (m.setVoice v p).known = m.known := rfl
@[simp] theorem VoiceManager.setVoice_lastvel (m : VoiceManager) (v : VoiceId) (p : PolicyVoice) :
    (m.setVoice v p).lastvel = m.lastvel := rfl
@[simp] theorem VoiceManager.setVoice_voices (m : VoiceManager) (v : VoiceId) (p : PolicyVoice) :
    (m.setVoice v p).voices = m.voices.set v p := rfl
@[simp] theorem VoiceManager.setVoice_routes (m : VoiceManager) (v : VoiceId) (p : PolicyVoice) :
    (m.setVoice v p).routes = m.routes := rfl
@[simp] theorem VoiceManager.setVoice_depthPw (m : VoiceManager) (v : VoiceId) (p : PolicyVoice) :
    (m.setVoice v p).depthPw = m.depthPw := rfl
@[simp] theorem VoiceManager.setVoice_depthF (m : VoiceManager) (v : VoiceId) (p : PolicyVoice) :
    (m.setVoice v p).depthF = m.depthF := rfl
@[simp] theorem VoiceManager.setVoice_depthFc (m : VoiceManager) (v : VoiceId) (p : PolicyVoice) :
    (m.setVoice v p).depthFc = m.depthFc := rfl
@[simp] theorem VoiceManager.setVoice_touch (m : VoiceManager) (v : VoiceId) (p : PolicyVoice) :
    (m.setVoice v p).touch = m.touch := rfl
@[simp] theorem VoiceManager.setVoice_pitch (m : VoiceManager) (v : VoiceId) (p : PolicyVoice) :
    (m.setVoice v p).pitch = m.pitch := rfl
@[simp] theorem VoiceManager.setVoice_fcBase (m : VoiceManager) (v : VoiceId) (p : PolicyVoice) :
    (m.setVoice v p).fcBase = m.fcBase := rfl
@[simp] theorem VoiceManager.setVoice_arp (m : VoiceManager) (v : VoiceId) (p : PolicyVoice) :
    (m.setVoice v p).arp = m.arp := rfl
@[simp] theorem VoiceManager.setVoice_arpLen (m : VoiceManager) (v : VoiceId) (p : PolicyVoice) :
    (m.setVoice v p).arpLen = m.arpLen := rfl
@[simp] theorem VoiceManager.setVoice_arpIdx (m : VoiceManager) (v : VoiceId) (p : PolicyVoice) :
    (m.setVoice v p).arpIdx = m.arpIdx := rfl
@[simp] theorem VoiceManager.setVoice_arpKey (m : VoiceManager) (v : VoiceId) (p : PolicyVoice) :
    (m.setVoice v p).arpKey = m.arpKey := rfl
@[simp] theorem VoiceManager.setVoice_arpCnt (m : VoiceManager) (v : VoiceId) (p : PolicyVoice) :
    (m.setVoice v p).arpCnt = m.arpCnt := rfl
@[simp] theorem VoiceManager.setVoice_arpRate (m : VoiceManager) (v : VoiceId) (p : PolicyVoice) :
    (m.setVoice v p).arpRate = m.arpRate := rfl
@[simp] theorem VoiceManager.setVoice_arpRetrig (m : VoiceManager) (v : VoiceId) (p : PolicyVoice) :
    (m.setVoice v p).arpRetrig = m.arpRetrig := rfl
@[simp] theorem VoiceManager.setVoice_arpScan (m : VoiceManager) (v : VoiceId) (p : PolicyVoice) :
    (m.setVoice v p).arpScan = m.arpScan := rfl
@[simp] theorem VoiceManager.setVoice_arpPending (m : VoiceManager) (v : VoiceId) (p : PolicyVoice) :
    (m.setVoice v p).arpPending = m.arpPending := rfl
@[simp] theorem VoiceManager.setVoice_split (m : VoiceManager) (v : VoiceId) (p : PolicyVoice) :
    (m.setVoice v p).split = m.split := rfl
@[simp] theorem VoiceManager.setVoice_keymode (m : VoiceManager) (v : VoiceId) (p : PolicyVoice) :
    (m.setVoice v p).keymode = m.keymode := rfl

@[simp] theorem VoiceManager.setDown_keymap (m : VoiceManager) (k : Key) (b : Bool) :
    (m.setDown k b).keymap = m.keymap.set k.toNat b k.isLt := rfl
@[simp] theorem VoiceManager.setDown_keyvel (m : VoiceManager) (k : Key) (b : Bool) :
    (m.setDown k b).keyvel = m.keyvel := rfl
@[simp] theorem VoiceManager.setDown_known (m : VoiceManager) (k : Key) (b : Bool) :
    (m.setDown k b).known = m.known := rfl
@[simp] theorem VoiceManager.setDown_lastvel (m : VoiceManager) (k : Key) (b : Bool) :
    (m.setDown k b).lastvel = m.lastvel := rfl
@[simp] theorem VoiceManager.setDown_voices (m : VoiceManager) (k : Key) (b : Bool) :
    (m.setDown k b).voices = m.voices := rfl
@[simp] theorem VoiceManager.setDown_routes (m : VoiceManager) (k : Key) (b : Bool) :
    (m.setDown k b).routes = m.routes := rfl
@[simp] theorem VoiceManager.setDown_depthPw (m : VoiceManager) (k : Key) (b : Bool) :
    (m.setDown k b).depthPw = m.depthPw := rfl
@[simp] theorem VoiceManager.setDown_depthF (m : VoiceManager) (k : Key) (b : Bool) :
    (m.setDown k b).depthF = m.depthF := rfl
@[simp] theorem VoiceManager.setDown_depthFc (m : VoiceManager) (k : Key) (b : Bool) :
    (m.setDown k b).depthFc = m.depthFc := rfl
@[simp] theorem VoiceManager.setDown_touch (m : VoiceManager) (k : Key) (b : Bool) :
    (m.setDown k b).touch = m.touch := rfl
@[simp] theorem VoiceManager.setDown_pitch (m : VoiceManager) (k : Key) (b : Bool) :
    (m.setDown k b).pitch = m.pitch := rfl
@[simp] theorem VoiceManager.setDown_fcBase (m : VoiceManager) (k : Key) (b : Bool) :
    (m.setDown k b).fcBase = m.fcBase := rfl
@[simp] theorem VoiceManager.setDown_arp (m : VoiceManager) (k : Key) (b : Bool) : (m.setDown k b).arp = m.arp := rfl
@[simp] theorem VoiceManager.setDown_arpLen (m : VoiceManager) (k : Key) (b : Bool) :
    (m.setDown k b).arpLen = m.arpLen := rfl
@[simp] theorem VoiceManager.setDown_arpIdx (m : VoiceManager) (k : Key) (b : Bool) :
    (m.setDown k b).arpIdx = m.arpIdx := rfl
@[simp] theorem VoiceManager.setDown_arpKey (m : VoiceManager) (k : Key) (b : Bool) :
    (m.setDown k b).arpKey = m.arpKey := rfl
@[simp] theorem VoiceManager.setDown_arpCnt (m : VoiceManager) (k : Key) (b : Bool) :
    (m.setDown k b).arpCnt = m.arpCnt := rfl
@[simp] theorem VoiceManager.setDown_arpRate (m : VoiceManager) (k : Key) (b : Bool) :
    (m.setDown k b).arpRate = m.arpRate := rfl
@[simp] theorem VoiceManager.setDown_arpRetrig (m : VoiceManager) (k : Key) (b : Bool) :
    (m.setDown k b).arpRetrig = m.arpRetrig := rfl
@[simp] theorem VoiceManager.setDown_arpScan (m : VoiceManager) (k : Key) (b : Bool) :
    (m.setDown k b).arpScan = m.arpScan := rfl
@[simp] theorem VoiceManager.setDown_arpPending (m : VoiceManager) (k : Key) (b : Bool) :
    (m.setDown k b).arpPending = m.arpPending := rfl
@[simp] theorem VoiceManager.setDown_split (m : VoiceManager) (k : Key) (b : Bool) :
    (m.setDown k b).split = m.split := rfl
@[simp] theorem VoiceManager.setDown_keymode (m : VoiceManager) (k : Key) (b : Bool) :
    (m.setDown k b).keymode = m.keymode := rfl

@[simp] theorem VoiceManager.setKnown_keymap (m : VoiceManager) (k : Key) (b : Bool) :
    (m.setKnown k b).keymap = m.keymap := rfl
@[simp] theorem VoiceManager.setKnown_keyvel (m : VoiceManager) (k : Key) (b : Bool) :
    (m.setKnown k b).keyvel = m.keyvel := rfl
@[simp] theorem VoiceManager.setKnown_known (m : VoiceManager) (k : Key) (b : Bool) :
    (m.setKnown k b).known = m.known.set k.toNat b k.isLt := rfl
@[simp] theorem VoiceManager.setKnown_lastvel (m : VoiceManager) (k : Key) (b : Bool) :
    (m.setKnown k b).lastvel = m.lastvel := rfl
@[simp] theorem VoiceManager.setKnown_voices (m : VoiceManager) (k : Key) (b : Bool) :
    (m.setKnown k b).voices = m.voices := rfl
@[simp] theorem VoiceManager.setKnown_routes (m : VoiceManager) (k : Key) (b : Bool) :
    (m.setKnown k b).routes = m.routes := rfl
@[simp] theorem VoiceManager.setKnown_depthPw (m : VoiceManager) (k : Key) (b : Bool) :
    (m.setKnown k b).depthPw = m.depthPw := rfl
@[simp] theorem VoiceManager.setKnown_depthF (m : VoiceManager) (k : Key) (b : Bool) :
    (m.setKnown k b).depthF = m.depthF := rfl
@[simp] theorem VoiceManager.setKnown_depthFc (m : VoiceManager) (k : Key) (b : Bool) :
    (m.setKnown k b).depthFc = m.depthFc := rfl
@[simp] theorem VoiceManager.setKnown_touch (m : VoiceManager) (k : Key) (b : Bool) :
    (m.setKnown k b).touch = m.touch := rfl
@[simp] theorem VoiceManager.setKnown_pitch (m : VoiceManager) (k : Key) (b : Bool) :
    (m.setKnown k b).pitch = m.pitch := rfl
@[simp] theorem VoiceManager.setKnown_fcBase (m : VoiceManager) (k : Key) (b : Bool) :
    (m.setKnown k b).fcBase = m.fcBase := rfl
@[simp] theorem VoiceManager.setKnown_arp (m : VoiceManager) (k : Key) (b : Bool) :
    (m.setKnown k b).arp = m.arp := rfl
@[simp] theorem VoiceManager.setKnown_arpLen (m : VoiceManager) (k : Key) (b : Bool) :
    (m.setKnown k b).arpLen = m.arpLen := rfl
@[simp] theorem VoiceManager.setKnown_arpIdx (m : VoiceManager) (k : Key) (b : Bool) :
    (m.setKnown k b).arpIdx = m.arpIdx := rfl
@[simp] theorem VoiceManager.setKnown_arpKey (m : VoiceManager) (k : Key) (b : Bool) :
    (m.setKnown k b).arpKey = m.arpKey := rfl
@[simp] theorem VoiceManager.setKnown_arpCnt (m : VoiceManager) (k : Key) (b : Bool) :
    (m.setKnown k b).arpCnt = m.arpCnt := rfl
@[simp] theorem VoiceManager.setKnown_arpRate (m : VoiceManager) (k : Key) (b : Bool) :
    (m.setKnown k b).arpRate = m.arpRate := rfl
@[simp] theorem VoiceManager.setKnown_arpRetrig (m : VoiceManager) (k : Key) (b : Bool) :
    (m.setKnown k b).arpRetrig = m.arpRetrig := rfl
@[simp] theorem VoiceManager.setKnown_arpScan (m : VoiceManager) (k : Key) (b : Bool) :
    (m.setKnown k b).arpScan = m.arpScan := rfl
@[simp] theorem VoiceManager.setKnown_arpPending (m : VoiceManager) (k : Key) (b : Bool) :
    (m.setKnown k b).arpPending = m.arpPending := rfl
@[simp] theorem VoiceManager.setKnown_split (m : VoiceManager) (k : Key) (b : Bool) :
    (m.setKnown k b).split = m.split := rfl
@[simp] theorem VoiceManager.setKnown_keymode (m : VoiceManager) (k : Key) (b : Bool) :
    (m.setKnown k b).keymode = m.keymode := rfl

@[simp] theorem VoiceManager.setVel_keymap (m : VoiceManager) (k : Key) (x : Velocity) :
    (m.setVel k x).keymap = m.keymap := rfl
@[simp] theorem VoiceManager.setVel_keyvel (m : VoiceManager) (k : Key) (x : Velocity) :
    (m.setVel k x).keyvel = m.keyvel.set k.toNat x k.isLt := rfl
@[simp] theorem VoiceManager.setVel_known (m : VoiceManager) (k : Key) (x : Velocity) :
    (m.setVel k x).known = m.known := rfl
@[simp] theorem VoiceManager.setVel_lastvel (m : VoiceManager) (k : Key) (x : Velocity) :
    (m.setVel k x).lastvel = m.lastvel := rfl
@[simp] theorem VoiceManager.setVel_voices (m : VoiceManager) (k : Key) (x : Velocity) :
    (m.setVel k x).voices = m.voices := rfl
@[simp] theorem VoiceManager.setVel_routes (m : VoiceManager) (k : Key) (x : Velocity) :
    (m.setVel k x).routes = m.routes := rfl
@[simp] theorem VoiceManager.setVel_depthPw (m : VoiceManager) (k : Key) (x : Velocity) :
    (m.setVel k x).depthPw = m.depthPw := rfl
@[simp] theorem VoiceManager.setVel_depthF (m : VoiceManager) (k : Key) (x : Velocity) :
    (m.setVel k x).depthF = m.depthF := rfl
@[simp] theorem VoiceManager.setVel_depthFc (m : VoiceManager) (k : Key) (x : Velocity) :
    (m.setVel k x).depthFc = m.depthFc := rfl
@[simp] theorem VoiceManager.setVel_touch (m : VoiceManager) (k : Key) (x : Velocity) :
    (m.setVel k x).touch = m.touch := rfl
@[simp] theorem VoiceManager.setVel_pitch (m : VoiceManager) (k : Key) (x : Velocity) :
    (m.setVel k x).pitch = m.pitch := rfl
@[simp] theorem VoiceManager.setVel_fcBase (m : VoiceManager) (k : Key) (x : Velocity) :
    (m.setVel k x).fcBase = m.fcBase := rfl
@[simp] theorem VoiceManager.setVel_arp (m : VoiceManager) (k : Key) (x : Velocity) :
    (m.setVel k x).arp = m.arp := rfl
@[simp] theorem VoiceManager.setVel_arpLen (m : VoiceManager) (k : Key) (x : Velocity) :
    (m.setVel k x).arpLen = m.arpLen := rfl
@[simp] theorem VoiceManager.setVel_arpIdx (m : VoiceManager) (k : Key) (x : Velocity) :
    (m.setVel k x).arpIdx = m.arpIdx := rfl
@[simp] theorem VoiceManager.setVel_arpKey (m : VoiceManager) (k : Key) (x : Velocity) :
    (m.setVel k x).arpKey = m.arpKey := rfl
@[simp] theorem VoiceManager.setVel_arpCnt (m : VoiceManager) (k : Key) (x : Velocity) :
    (m.setVel k x).arpCnt = m.arpCnt := rfl
@[simp] theorem VoiceManager.setVel_arpRate (m : VoiceManager) (k : Key) (x : Velocity) :
    (m.setVel k x).arpRate = m.arpRate := rfl
@[simp] theorem VoiceManager.setVel_arpRetrig (m : VoiceManager) (k : Key) (x : Velocity) :
    (m.setVel k x).arpRetrig = m.arpRetrig := rfl
@[simp] theorem VoiceManager.setVel_arpScan (m : VoiceManager) (k : Key) (x : Velocity) :
    (m.setVel k x).arpScan = m.arpScan := rfl
@[simp] theorem VoiceManager.setVel_arpPending (m : VoiceManager) (k : Key) (x : Velocity) :
    (m.setVel k x).arpPending = m.arpPending := rfl
@[simp] theorem VoiceManager.setVel_split (m : VoiceManager) (k : Key) (x : Velocity) :
    (m.setVel k x).split = m.split := rfl
@[simp] theorem VoiceManager.setVel_keymode (m : VoiceManager) (k : Key) (x : Velocity) :
    (m.setVel k x).keymode = m.keymode := rfl

@[simp] theorem VoiceManager.voice_setVoice_self (m : VoiceManager) (v : VoiceId) (p : PolicyVoice) :
    (m.setVoice v p).voice v = p := PerVoice.get_set_self _ _ _

theorem VoiceManager.voice_setVoice (m : VoiceManager) (v u : VoiceId) (p : PolicyVoice) :
    (m.setVoice v p).voice u = if u = v then p else m.voice u := PerVoice.get_set _ _ _ _

@[simp] theorem VoiceManager.isKnown_setVoice (m : VoiceManager) (v : VoiceId) (p : PolicyVoice) (k : Key) :
    (m.setVoice v p).isKnown k = m.isKnown k := rfl

@[simp] theorem VoiceManager.isDown_setVoice (m : VoiceManager) (v : VoiceId) (p : PolicyVoice) (k : Key) :
    (m.setVoice v p).isDown k = m.isDown k := rfl

@[simp] theorem VoiceManager.velOf_setVoice (m : VoiceManager) (v : VoiceId) (p : PolicyVoice) (k : Key) :
    (m.setVoice v p).velOf k = m.velOf k := rfl

@[simp] theorem VoiceManager.voice_setKnown (m : VoiceManager) (k : Key) (b : Bool) (v : VoiceId) :
    (m.setKnown k b).voice v = m.voice v := rfl

@[simp] theorem VoiceManager.isDown_setKnown (m : VoiceManager) (k : Key) (b : Bool) (j : Key) :
    (m.setKnown k b).isDown j = m.isDown j := rfl

theorem VoiceManager.isKnown_setKnown (m : VoiceManager) (k : Key) (b : Bool) (j : Key) :
    (m.setKnown k b).isKnown j = if j = k then b else m.isKnown j := by
  simp only [VoiceManager.isKnown, VoiceManager.setKnown, Vector.getElem_set]
  by_cases h : j = k
  · subst h; simp
  · have : k.toNat ≠ j.toNat := fun e => h (BitVec.eq_of_toNat_eq e.symm)
    simp [h, this]

theorem VoiceManager.isDown_setDown (m : VoiceManager) (k : Key) (b : Bool) (j : Key) :
    (m.setDown k b).isDown j = if j = k then b else m.isDown j := by
  simp only [VoiceManager.isDown, VoiceManager.setDown, Vector.getElem_set]
  by_cases h : j = k
  · subst h; simp
  · have : k.toNat ≠ j.toNat := fun e => h (BitVec.eq_of_toNat_eq e.symm)
    simp [h, this]

@[simp] theorem Engine.writeAudio_vm (e : Engine) (r : Reg) (d : Byte) : (e.writeAudio r d).vm = e.vm := rfl
@[simp] theorem Engine.writeAudio_audio (e : Engine) (r : Reg) (d : Byte) :
    (e.writeAudio r d).audio = chipWrite e.audio r d := rfl
@[simp] theorem Engine.writeAudio_modulation (e : Engine) (r : Reg) (d : Byte) :
    (e.writeAudio r d).modulation = e.modulation := rfl

@[simp] theorem Engine.writeModulation_vm (e : Engine) (r : Reg) (d : Byte) : (e.writeModulation r d).vm = e.vm := rfl
@[simp] theorem Engine.writeModulation_audio (e : Engine) (r : Reg) (d : Byte) :
    (e.writeModulation r d).audio = e.audio := rfl
@[simp] theorem Engine.writeModulation_modulation (e : Engine) (r : Reg) (d : Byte) :
    (e.writeModulation r d).modulation = chipWrite e.modulation r d := rfl

@[simp] theorem Engine.setVoice_vm (e : Engine) (v : VoiceId) (p : PolicyVoice) :
    (e.setVoice v p).vm = e.vm.setVoice v p := rfl
@[simp] theorem Engine.setVoice_audio (e : Engine) (v : VoiceId) (p : PolicyVoice) :
    (e.setVoice v p).audio = e.audio := rfl
@[simp] theorem Engine.setVoice_modulation (e : Engine) (v : VoiceId) (p : PolicyVoice) :
    (e.setVoice v p).modulation = e.modulation := rfl

@[simp] theorem Engine.setKnown_vm (e : Engine) (k : Key) (b : Bool) : (e.setKnown k b).vm = e.vm.setKnown k b := rfl
@[simp] theorem Engine.setKnown_audio (e : Engine) (k : Key) (b : Bool) : (e.setKnown k b).audio = e.audio := rfl
@[simp] theorem Engine.setKnown_modulation (e : Engine) (k : Key) (b : Bool) :
    (e.setKnown k b).modulation = e.modulation := rfl

@[simp] theorem Engine.writeActrl_vm (e : Engine) (v : VoiceId) (b : Byte) :
    (e.writeActrl v b).vm = e.vm.setVoice v { e.vm.voice v with actrl := b } := rfl
@[simp] theorem Engine.writeActrl_audio (e : Engine) (v : VoiceId) (b : Byte) :
    (e.writeActrl v b).audio = chipWrite e.audio (.voice v .ctrl) b := rfl
@[simp] theorem Engine.writeActrl_modulation (e : Engine) (v : VoiceId) (b : Byte) :
    (e.writeActrl v b).modulation = e.modulation := rfl

@[simp] theorem Engine.addArpCnt_audio (e : Engine) (n : Int) : (e.addArpCnt n).audio = e.audio := rfl
@[simp] theorem Engine.addArpCnt_modulation (e : Engine) (n : Int) : (e.addArpCnt n).modulation = e.modulation := rfl
@[simp] theorem Engine.addArpCnt_vm_keymap (e : Engine) (n : Int) : (e.addArpCnt n).vm.keymap = e.vm.keymap := rfl
@[simp] theorem Engine.addArpCnt_vm_keyvel (e : Engine) (n : Int) : (e.addArpCnt n).vm.keyvel = e.vm.keyvel := rfl
@[simp] theorem Engine.addArpCnt_vm_known (e : Engine) (n : Int) : (e.addArpCnt n).vm.known = e.vm.known := rfl
@[simp] theorem Engine.addArpCnt_vm_lastvel (e : Engine) (n : Int) : (e.addArpCnt n).vm.lastvel = e.vm.lastvel := rfl
@[simp] theorem Engine.addArpCnt_vm_voices (e : Engine) (n : Int) : (e.addArpCnt n).vm.voices = e.vm.voices := rfl
@[simp] theorem Engine.addArpCnt_vm_routes (e : Engine) (n : Int) : (e.addArpCnt n).vm.routes = e.vm.routes := rfl
@[simp] theorem Engine.addArpCnt_vm_depthPw (e : Engine) (n : Int) : (e.addArpCnt n).vm.depthPw = e.vm.depthPw := rfl
@[simp] theorem Engine.addArpCnt_vm_depthF (e : Engine) (n : Int) : (e.addArpCnt n).vm.depthF = e.vm.depthF := rfl
@[simp] theorem Engine.addArpCnt_vm_depthFc (e : Engine) (n : Int) : (e.addArpCnt n).vm.depthFc = e.vm.depthFc := rfl
@[simp] theorem Engine.addArpCnt_vm_touch (e : Engine) (n : Int) : (e.addArpCnt n).vm.touch = e.vm.touch := rfl
@[simp] theorem Engine.addArpCnt_vm_pitch (e : Engine) (n : Int) : (e.addArpCnt n).vm.pitch = e.vm.pitch := rfl
@[simp] theorem Engine.addArpCnt_vm_fcBase (e : Engine) (n : Int) : (e.addArpCnt n).vm.fcBase = e.vm.fcBase := rfl
@[simp] theorem Engine.addArpCnt_vm_arp (e : Engine) (n : Int) : (e.addArpCnt n).vm.arp = e.vm.arp := rfl
@[simp] theorem Engine.addArpCnt_vm_arpLen (e : Engine) (n : Int) : (e.addArpCnt n).vm.arpLen = e.vm.arpLen := rfl
@[simp] theorem Engine.addArpCnt_vm_arpIdx (e : Engine) (n : Int) : (e.addArpCnt n).vm.arpIdx = e.vm.arpIdx := rfl
@[simp] theorem Engine.addArpCnt_vm_arpKey (e : Engine) (n : Int) : (e.addArpCnt n).vm.arpKey = e.vm.arpKey := rfl
@[simp] theorem Engine.addArpCnt_vm_arpCnt (e : Engine) (n : Int) :
    (e.addArpCnt n).vm.arpCnt = e.vm.arpCnt + BitVec.ofInt 32 n := rfl
@[simp] theorem Engine.addArpCnt_vm_arpRate (e : Engine) (n : Int) : (e.addArpCnt n).vm.arpRate = e.vm.arpRate := rfl
@[simp] theorem Engine.addArpCnt_vm_arpRetrig (e : Engine) (n : Int) :
    (e.addArpCnt n).vm.arpRetrig = e.vm.arpRetrig := rfl
@[simp] theorem Engine.addArpCnt_vm_arpScan (e : Engine) (n : Int) : (e.addArpCnt n).vm.arpScan = e.vm.arpScan := rfl
@[simp] theorem Engine.addArpCnt_vm_arpPending (e : Engine) (n : Int) :
    (e.addArpCnt n).vm.arpPending = e.vm.arpPending := rfl
@[simp] theorem Engine.addArpCnt_vm_split (e : Engine) (n : Int) : (e.addArpCnt n).vm.split = e.vm.split := rfl
@[simp] theorem Engine.addArpCnt_vm_keymode (e : Engine) (n : Int) : (e.addArpCnt n).vm.keymode = e.vm.keymode := rfl

end Sys2Proof.Machine
end

