-- ==== Sys2Proof/Laws/Engine.lean ====
section
/-! SUPPORT. What the VoiceManager's operations do to the engine: the two assignments, the induction over a scan, and
the ticks of a block as iterations. -/

namespace Sys2Proof.Machine

open Sys2Proof

/-! ### The gate shadow -/

theorem gateClear_of_closed {b : Byte} (h : b.getLsbD 0 = false) : gateClear b = b := by
  revert b; unfold gateClear; decide

theorem gateSet_of_open {b : Byte} (h : b.getLsbD 0 = true) : gateSet b = b := by
  revert b; unfold gateSet; decide

@[simp] theorem gateClear_bit (b : Byte) : (gateClear b).getLsbD 0 = false := by
  revert b; unfold gateClear; decide

@[simp] theorem gateSet_bit (b : Byte) : (gateSet b).getLsbD 0 = true := by
  revert b; unfold gateSet; decide

/-! ### `Free` and `Assign` (R271, R272) -/

/-- `Free(v)` forgets the key and closes the gate in the shadow, whether or not the gate was open. -/
theorem freeVoice_vm (e : Engine) (v : VoiceId) :
    (freeVoice e v).vm =
      e.vm.setVoice v { e.vm.voice v with vkey := none, actrl := gateClear (e.vm.voice v).actrl } := by
  simp only [freeVoice]
  split
  · cases v <;> rfl
  · next h => rw [gateClear_of_closed (by simpa using h)]; rfl

/-- `Free(v)` writes the control register of the audio chip only when the gate was open. -/
theorem freeVoice_audio (e : Engine) (v : VoiceId) :
    (freeVoice e v).audio =
      if (e.vm.voice v).actrl.getLsbD 0 then e.audio.setReg (.voice v .ctrl) (gateClear (e.vm.voice v).actrl)
      else e.audio := by
  simp only [freeVoice]; split <;> rfl

@[simp] theorem freeVoice_modulation (e : Engine) (v : VoiceId) : (freeVoice e v).modulation = e.modulation := by
  simp only [freeVoice]; split <;> rfl

@[simp] theorem assignedVoice_actrl (c : Cfg) (p : PolicyVoice) (k : Key) (vel : Velocity) (f : F32) :
    (assignedVoice c p k vel f).actrl = p.actrl := by
  simp only [assignedVoice]; split <;> rfl

@[simp] theorem assignedVoice_vkey (c : Cfg) (p : PolicyVoice) (k : Key) (vel : Velocity) (f : F32) :
    (assignedVoice c p k vel f).vkey = some k := by
  simp only [assignedVoice]; split <;> rfl

/-- `Assign(v, k)` sets the policy state of one voice, opens its gate in the shadow, and records the velocity. -/
theorem assignVoice_vm (c : Cfg) (e : Engine) (v : VoiceId) (k : Key) :
    (assignVoice c e v k).vm =
      { e.vm.setVoice v { assignedVoice c (e.vm.voice v) k (e.vm.velOf k) (targetFreq e v k) with
          actrl := gateSet (e.vm.voice v).actrl } with lastvel := e.vm.velOf k } := by
  simp only [assignVoice]
  split
  · next h =>
    rw [gateSet_of_open h]
    have : assignedVoice c (e.vm.voice v) k (e.vm.velOf k) (targetFreq e v k) =
        { assignedVoice c (e.vm.voice v) k (e.vm.velOf k) (targetFreq e v k) with actrl := (e.vm.voice v).actrl } := by
      simp only [assignedVoice]; split <;> rfl
    rw [← this]; rfl
  · cases v <;> rfl

/-- `Assign(v, k)` writes the control register of the audio chip only when the gate was closed. -/
theorem assignVoice_audio (c : Cfg) (e : Engine) (v : VoiceId) (k : Key) :
    (assignVoice c e v k).audio =
      if (e.vm.voice v).actrl.getLsbD 0 then e.audio
      else e.audio.setReg (.voice v .ctrl) (gateSet (e.vm.voice v).actrl) := by
  simp only [assignVoice]; split <;> rfl

@[simp] theorem assignVoice_modulation (c : Cfg) (e : Engine) (v : VoiceId) (k : Key) :
    (assignVoice c e v k).modulation = e.modulation := by
  simp only [assignVoice]; split <;> rfl

/-! ### Induction over the scan (R270 to R278) -/

/-- What `Free` keeps, `Release` keeps. -/
theorem release_induction {P : Engine → Prop} (hf : ∀ e v, P e → P (freeVoice e v)) {e : Engine} (k : Key) (h : P e) :
    P (release e k) := by
  have hh : ∀ e v, P e → P (freeIfHolds e k v) := by
    intro e v h; simp only [freeIfHolds]; split
    · exact hf _ _ h
    · exact h
  simp only [release]; split
  · split
    · exact hf _ _ (hf _ _ (hf _ _ h))
    · exact h
  · exact hh _ _ (hh _ _ (hh _ _ h))
  · exact hh _ _ (hh _ _ (hh _ _ h))
  · split
    · exact hh _ _ (hh _ _ h)
    · exact h
  · split
    · exact hh _ _ (hh _ _ h)
    · exact h

/-- What `Assign` keeps, `Press` keeps. -/
theorem press_induction {P : Engine → Prop} {c : Cfg} (ha : ∀ e v k, P e → P (assignVoice c e v k)) {e : Engine} (k : Key)
    (h : P e) : P (press c e k) := by
  simp only [press]; split
  · exact ha _ _ _ (ha _ _ _ (ha _ _ _ h))
  · exact ha _ _ _ h
  · exact ha _ _ _ h
  · split
    · exact ha _ _ _ h
    · exact h
  · split
    · exact ha _ _ _ h
    · exact h

/-- What one key's work keeps, the fold over the keys keeps. -/
theorem foldl_induction {P : Engine → Prop} {f : Engine → Key → Engine} (hs : ∀ e k, P e → P (f e k)) (l : List Key)
    {e : Engine} (h : P e) : P (l.foldl f e) := by
  induction l generalizing e with
  | nil => exact h
  | cons k l ih => exact ih (hs e k h)

/-- What `Free`, `Assign` and the tracking of a key keep, a scan keeps. -/
theorem scan_induction {P : Engine → Prop} {c : Cfg} (hk : ∀ e k b, P e → P (Engine.setKnown e k b))
    (hf : ∀ e v, P e → P (freeVoice e v)) (ha : ∀ e v k, P e → P (assignVoice c e v k)) {e : Engine} (h : P e) :
    P (scan c e) := by
  have h1 : P (allKeys.foldl scanRelease e) := foldl_induction (fun e k h => by
    simp only [scanRelease]; split
    · exact release_induction hf k (hk _ _ _ h)
    · exact h) _ h
  have h2 : P (allKeys.foldl (scanPress c) (allKeys.foldl scanRelease e)) := foldl_induction (fun e k h => by
    simp only [scanPress]; split
    · exact press_induction ha k (hk _ _ _ h)
    · exact h) _ h1
  simp only [scan]; split
  · exact foldl_induction (fun e k h => by
      simp only [rescanKey]; split
      · split
        · exact ha _ _ _ h
        · exact h
      · exact h) _ h2
  · exact h2

/-! ### The ticks of a block (R265) -/

theorem clkTicks_fst (c : Cfg) (n : Nat) (e : Engine) : (clkTicks c n e).1 = (clkTick c)^[n] e := by
  induction n generalizing e with
  | zero => rfl
  | succ n ih => simp only [clkTicks, ih, Function.iterate_succ, Function.comp]

@[simp] theorem clkTicks_length (c : Cfg) (n : Nat) (e : Engine) : (clkTicks c n e).2.length = n := by
  induction n generalizing e with
  | zero => rfl
  | succ n ih => simp only [clkTicks, List.length_cons, ih]

/-- The `i`-th sample of a run of ticks is the audio chip's after `i + 1` ticks. -/
theorem clkTicks_getElem? (c : Cfg) (n i : Nat) (e : Engine) (h : i < n) :
    (clkTicks c n e).2[i]? = some ((clkTick c)^[i + 1] e).audio.sample := by
  induction n generalizing e i with
  | zero => omega
  | succ n ih =>
    cases i with
    | zero => rfl
    | succ i =>
      simp only [clkTicks, List.getElem?_cons_succ]
      rw [ih i (clkTick c e) (by omega), ← Function.iterate_succ_apply]

theorem subBlock_fst (c : Cfg) (e : Engine) :
    (subBlock c e).1 = arpOwed c ((clkTick c)^[16] (evalRoutes e)) := by
  have h : (subBlock c e).1 = arpOwed c (clkTicks c subblock (evalRoutes e)).1 := rfl
  rw [h, clkTicks_fst, show subblock = 16 from rfl]

@[simp] theorem subBlock_length (c : Cfg) (e : Engine) : (subBlock c e).2.length = 16 := by
  have h : (subBlock c e).2 = (clkTicks c subblock (evalRoutes e)).2 := rfl
  rw [h, clkTicks_length, show subblock = 16 from rfl]

theorem subBlocks_fst (c : Cfg) (n : Nat) (e : Engine) :
    (subBlocks c n e).1 = (fun e => (subBlock c e).1)^[n] e := by
  induction n generalizing e with
  | zero => rfl
  | succ n ih => simp only [subBlocks, ih, Function.iterate_succ, Function.comp]

@[simp] theorem subBlocks_length (c : Cfg) (n : Nat) (e : Engine) : (subBlocks c n e).2.length = 16 * n := by
  induction n generalizing e with
  | zero => rfl
  | succ n ih => simp only [subBlocks, List.length_append, subBlock_length, ih]; omega

/-- Sample `16 * j + i` of a run of sub-blocks is sample `i` of sub-block `j`. -/
theorem subBlocks_getElem? (c : Cfg) (n j i : Nat) (e : Engine) (hj : j < n) (hi : i < 16) :
    (subBlocks c n e).2[16 * j + i]? = (subBlock c ((fun e => (subBlock c e).1)^[j] e)).2[i]? := by
  induction n generalizing e j with
  | zero => omega
  | succ n ih =>
    cases j with
    | zero =>
      simp only [subBlocks, Nat.mul_zero, Nat.zero_add, Function.iterate_zero, id_eq]
      rw [List.getElem?_append_left (by rw [subBlock_length]; exact hi)]
    | succ j =>
      simp only [subBlocks, Function.iterate_succ, Function.comp]
      rw [List.getElem?_append_right (by rw [subBlock_length]; omega), subBlock_length,
        ← ih j (subBlock c e).1 (by omega)]
      congr 1; omega

/-! ### Routes and the arpeggiator leave the modulation chip alone -/

@[simp] theorem evalRoutes_vm (e : Engine) : (evalRoutes e).vm = e.vm := rfl
@[simp] theorem evalRoutes_modulation (e : Engine) : (evalRoutes e).modulation = e.modulation := rfl
@[simp] theorem waveScan_modulation (e : Engine) : (waveScan e).modulation = e.modulation := rfl

/-- What `Assign` and the owed flag keep, the owed note keeps (R315). -/
theorem arpOwed_cases (c : Cfg) (e : Engine) :
    (e.vm.arpPending = false ∧ arpOwed c e = e) ∨
    (e.vm.arpPending = true ∧ e.vm.arpKey = none ∧ arpOwed c e = { e with vm := { e.vm with arpPending := false } }) ∨
    (∃ k, e.vm.arpPending = true ∧ e.vm.arpKey = some k ∧
      arpOwed c e = { assignVoice c e .v2 k with vm := { (assignVoice c e .v2 k).vm with arpPending := false } }) := by
  cases hp : e.vm.arpPending
  · exact .inl ⟨rfl, by simp [arpOwed, hp]⟩
  · cases hk : e.vm.arpKey with
    | none => exact .inr (.inl ⟨rfl, rfl, by simp [arpOwed, hp, hk]⟩)
    | some k => exact .inr (.inr ⟨k, rfl, rfl, by simp [arpOwed, hp, hk]⟩)

end Sys2Proof.Machine
end

