-- ==== Sys2Proof/Laws/Float.lean ====
section
/-! SUPPORT. Finite binary32 patterns as rationals: taking apart, comparing. -/

namespace Sys2Proof.Machine

open Sys2Proof

/-- A finite pattern has a sign, an integer significand below 2^24 and an exponent from -149 to 104. -/
theorem unpack_of_finite {x : F32} (h : isFinite x = true) :
    ∃ n m e, unpack x = .fin n m e ∧ m < 2 ^ 24 ∧ -149 ≤ e ∧ e ≤ 104 := by
  have hf : f32Frac x < 2 ^ 23 := (x.extractLsb' 0 23).isLt
  have he : f32Exp x < 2 ^ 8 := (x.extractLsb' 23 8).isLt
  have hx : f32Exp x ≠ 255 := by simpa [isFinite] using h
  by_cases h0 : f32Exp x = 0
  · exact ⟨x.msb, f32Frac x, -149, by rw [unpack, if_neg hx, if_pos h0], by omega, by omega, by omega⟩
  · exact ⟨x.msb, f32Frac x + 2 ^ 23, (f32Exp x : Int) - 150, by rw [unpack, if_neg hx, if_neg h0], by omega, by omega,
      by omega⟩

/-- A pattern that takes apart into a finite value is finite. -/
theorem isFinite_of_unpack {x : F32} {n : Bool} {m : Nat} {e : Int} (h : unpack x = .fin n m e) : isFinite x = true := by
  by_cases hx : f32Exp x = 255
  · rw [unpack, if_pos hx] at h; split at h <;> cases h
  · simpa [isFinite] using hx

theorem f32Value_of_unpack {x : F32} {n : Bool} {m : Nat} {e : Int} (h : unpack x = .fin n m e) :
    f32Value x = (if n then -(m : ℚ) else (m : ℚ)) * (2 : ℚ) ^ e := by
  rw [f32Value, h]

/-- A significand scaled to a smaller exponent keeps its value. -/
theorem scaled_value (n : Bool) (m : Nat) {e e0 : Int} (h : e0 ≤ e) :
    (scaled n m e e0 : ℚ) * (2 : ℚ) ^ e0 = (if n then -(m : ℚ) else (m : ℚ)) * (2 : ℚ) ^ e := by
  have hp : (2 : ℚ) ^ e = 2 ^ (e - e0).toNat * 2 ^ e0 := by
    rw [← zpow_natCast, ← zpow_add₀ (by norm_num)]; congr 1; omega
  rw [hp]; unfold scaled; cases n <;> simp [mul_assoc]

theorem minExp_le_left (a b : Int) : minExp a b ≤ a := by unfold minExp; split <;> omega
theorem minExp_le_right (a b : Int) : minExp a b ≤ b := by unfold minExp; split <;> omega

/-- Comparing finite patterns is comparing their values. -/
theorem flt_eq_decide {a b : F32} (ha : isFinite a = true) (hb : isFinite b = true) :
    flt a b = decide (f32Value a < f32Value b) := by
  obtain ⟨n1, m1, e1, h1, -⟩ := unpack_of_finite ha
  obtain ⟨n2, m2, e2, h2, -⟩ := unpack_of_finite hb
  rw [flt, h1, h2]
  simp only
  rw [f32Value_of_unpack h1, f32Value_of_unpack h2, ← scaled_value n1 m1 (minExp_le_left e1 e2),
    ← scaled_value n2 m2 (minExp_le_right e1 e2)]
  refine decide_eq_decide.2 ?_
  rw [mul_lt_mul_iff_left₀ (by positivity)]
  exact Int.cast_lt.symm

theorem fle_eq_decide {a b : F32} (ha : isFinite a = true) (hb : isFinite b = true) :
    fle a b = decide (f32Value a ≤ f32Value b) := by
  obtain ⟨n1, m1, e1, h1, -⟩ := unpack_of_finite ha
  obtain ⟨n2, m2, e2, h2, -⟩ := unpack_of_finite hb
  rw [fle, h1, h2]
  simp only
  rw [f32Value_of_unpack h1, f32Value_of_unpack h2, ← scaled_value n1 m1 (minExp_le_left e1 e2),
    ← scaled_value n2 m2 (minExp_le_right e1 e2)]
  refine decide_eq_decide.2 ?_
  rw [mul_le_mul_iff_left₀ (by positivity)]
  exact Int.cast_le.symm

end Sys2Proof.Machine
end

