-- ==== Sys2Proof/Laws/Ops.lean ====
section
/-! SUPPORT. For each shared operation, one lemma that says once everything it can do. -/

namespace Sys2Proof.Machine

open Sys2Proof

theorem handleSlot_eq_some {h : Byte} {n : Nat} : handleSlot h = some n ↔ 0 ≤ h.toInt ∧ h.toNat = n := by
  unfold handleSlot
  split
  · simp; omega
  · simp; omega

theorem handleSlot_eq_none {h : Byte} : handleSlot h = none ↔ h.toInt < 0 := by
  unfold handleSlot
  split <;> simp_all

theorem State.chip_eq_some {s : State} {n : Nat} {c : Chip} : s.chip n = some c ↔ s.pool[n]? = some (some c) := by
  unfold State.chip
  cases h : s.pool[n]? with
  | none => simp [Option.join]
  | some x => simp [Option.join]

theorem State.chip_eq_none {s : State} {n : Nat} : s.chip n = none ↔ ∀ c, s.pool[n]? ≠ some (some c) := by
  rw [Option.eq_none_iff_forall_ne_some]
  exact forall_congr' fun c => not_congr State.chip_eq_some

/-- The handle check finds exactly the valid handles (R332). -/
theorem State.lookup_eq_some {s : State} {h : Byte} {n : Nat} {c : Chip} :
    s.lookup h = some (n, c) ↔ HandleOf s h n c := by
  unfold State.lookup
  cases hs : handleSlot h with
  | none =>
    have := handleSlot_eq_none.1 hs
    simp only [reduceCtorEq, false_iff, HandleOf]; omega
  | some k =>
    obtain ⟨h0, rfl⟩ := handleSlot_eq_some.1 hs
    cases hc : s.chip h.toNat with
    | none =>
      have := State.chip_eq_none.1 hc c
      simp only [hc, reduceCtorEq, HandleOf, false_iff]
      rintro ⟨-, rfl, h2⟩; exact this h2
    | some b =>
      have := State.chip_eq_some.1 hc
      simp only [hc, Option.some.injEq, Prod.mk.injEq, HandleOf]
      constructor
      · rintro ⟨rfl, rfl⟩; exact ⟨h0, rfl, this⟩
      · rintro ⟨-, rfl, h2⟩; exact ⟨rfl, by simpa [this] using h2⟩

/-- The handle check refuses exactly the invalid handles (R332). -/
theorem State.lookup_eq_none {s : State} {h : Byte} : s.lookup h = none ↔ HandleInvalid s h := by
  constructor
  · intro hn
    by_cases h0 : h.toInt < 0
    · exact .inl h0
    · refine .inr ?_
      cases hp : s.pool[h.toNat]? with
      | none => exact .inl (by simpa using hp)
      | some x =>
        cases x with
        | none => exact .inr rfl
        | some c =>
          have := State.lookup_eq_some.2 (⟨by omega, rfl, hp⟩ : HandleOf s h h.toNat c)
          simp [hn] at this
  · intro hi
    cases hl : s.lookup h with
    | none => rfl
    | some x =>
      obtain ⟨h0, hn, hp⟩ := State.lookup_eq_some.1 (hl.trans (by rfl : some x = some (x.1, x.2)))
      rcases hi with h1 | h1 | h1
      · omega
      · rw [hn] at h1; simp [List.getElem?_eq_none h1] at hp
      · rw [hn] at h1; simp [h1] at hp

/-- The pair check finds exactly the live pair (R263). -/
theorem State.engine_eq_some {s : State} {e : Engine} :
    s.engine = some e ↔ e.vm = s.vm ∧ PairOf s e.audio e.modulation := by
  unfold State.engine State.pair
  cases h0 : s.chip 0 with
  | none =>
    have := State.chip_eq_none.1 h0 e.audio
    simp [PairOf, this]
  | some a =>
    cases h1 : s.chip 1 with
    | none =>
      have := State.chip_eq_none.1 h1 e.modulation
      simp [PairOf, this]
    | some m =>
      have p0 := State.chip_eq_some.1 h0
      have p1 := State.chip_eq_some.1 h1
      obtain ⟨vm, a', m'⟩ := e
      simp only [Option.some.injEq, Engine.mk.injEq, PairOf, p0, p1]
      constructor
      · rintro ⟨rfl, rfl, rfl⟩; exact ⟨rfl, rfl, rfl⟩
      · rintro ⟨rfl, rfl, rfl⟩; exact ⟨rfl, rfl, rfl⟩

theorem State.engine_of_pair {s : State} {a m : Chip} (h : PairOf s a m) :
    s.engine = some { vm := s.vm, audio := a, modulation := m } :=
  State.engine_eq_some.2 ⟨rfl, h⟩

/-- The pair check refuses exactly the broken pair (R263). -/
theorem State.engine_eq_none {s : State} : s.engine = none ↔ PairBroken s := by
  constructor
  · intro h
    by_contra hb
    simp only [PairBroken, not_or, not_forall, not_not] at hb
    obtain ⟨⟨a, ha⟩, m, hm⟩ := hb
    simp [State.engine_of_pair ⟨ha, hm⟩] at h
  · intro h
    cases he : s.engine with
    | none => rfl
    | some e =>
      obtain ⟨-, ha, hm⟩ := State.engine_eq_some.1 he
      rcases h with h | h
      · exact absurd ha (h _)
      · exact absurd hm (h _)

/-- Putting back a chip that is there changes nothing. -/
theorem list_set_self {α : Type} {l : List α} {n : Nat} {x : α} (h : l[n]? = some x) : l.set n x = l := by
  obtain ⟨hn, rfl⟩ := List.getElem?_eq_some_iff.1 h
  simp

/-- Putting back the pair that is there changes nothing. -/
theorem pool_set_pair {s : State} {a m : Chip} (h : PairOf s a m) :
    (s.pool.set 0 (some a)).set 1 (some m) = s.pool := by
  rw [list_set_self h.1, list_set_self h.2]

/-- A WR command (R110): the exchange on a valid handle. -/
theorem wrCommand_of_handle {s : State} {h d : Byte} {n : Nat} {c : Chip} (r : Reg) (hh : HandleOf s h n c) :
    wrCommand r h d s =
      .next { s with pool := s.pool.set n (some (chipWrite c r d)), rsp := [.ok ((c.reg r).setWidth 32)] } := by
  simp only [wrCommand, State.lookup_eq_some.2 hh]; rfl

theorem wrCommand_of_invalid {s : State} {h d : Byte} (r : Reg) (hh : HandleInvalid s h) :
    wrCommand r h d s = .next (s.failed .badHandle 0xFFFFFFFF#32) := by
  simp only [wrCommand, State.lookup_eq_none.2 hh]; rfl

/-- Everything a WR command can do: fail the handle check, or exchange a byte of the slot's chip. -/
theorem wrCommand_cases (r : Reg) (h d : Byte) (s : State) :
    (HandleInvalid s h ∧ wrCommand r h d s = .next (s.failed .badHandle 0xFFFFFFFF#32)) ∨
    ∃ n c, HandleOf s h n c ∧ wrCommand r h d s =
      .next { s with pool := s.pool.set n (some (chipWrite c r d)), rsp := [.ok ((c.reg r).setWidth 32)] } := by
  cases hl : s.lookup h with
  | none => exact .inl ⟨State.lookup_eq_none.1 hl, wrCommand_of_invalid r (State.lookup_eq_none.1 hl)⟩
  | some x =>
    have hh : HandleOf s h x.1 x.2 := State.lookup_eq_some.1 hl
    exact .inr ⟨x.1, x.2, hh, wrCommand_of_handle r hh⟩

/-- An IO command (R150) on a valid handle. -/
theorem ioCommand_of_handle {s : State} {h : Byte} {n : Nat} {c : Chip} (f : Chip → Chip × F32) (hh : HandleOf s h n c) :
    ioCommand f h s = .next { s with pool := s.pool.set n (some (f c).1), rsp := [.ok (f c).2] } := by
  simp only [ioCommand, State.lookup_eq_some.2 hh]; rfl

theorem ioCommand_of_invalid {s : State} {h : Byte} (f : Chip → Chip × F32) (hh : HandleInvalid s h) :
    ioCommand f h s = .next (s.failed .badHandle 0xBF800000#32) := by
  simp only [ioCommand, State.lookup_eq_none.2 hh]; rfl

/-- Everything an IO command on a handle can do. -/
theorem ioCommand_cases (f : Chip → Chip × F32) (h : Byte) (s : State) :
    (HandleInvalid s h ∧ ioCommand f h s = .next (s.failed .badHandle 0xBF800000#32)) ∨
    ∃ n c, HandleOf s h n c ∧ ioCommand f h s =
      .next { s with pool := s.pool.set n (some (f c).1), rsp := [.ok (f c).2] } := by
  cases hl : s.lookup h with
  | none => exact .inl ⟨State.lookup_eq_none.1 hl, ioCommand_of_invalid f (State.lookup_eq_none.1 hl)⟩
  | some x =>
    have hh : HandleOf s h x.1 x.2 := State.lookup_eq_some.1 hl
    exact .inr ⟨x.1, x.2, hh, ioCommand_of_handle f hh⟩

/-- An event (R263) on a live pair. -/
theorem evCommand_of_pair {s : State} {a m : Chip} (f : Engine → Engine) (h : PairOf s a m) :
    evCommand f s = .next (s.eventDone (f { vm := s.vm, audio := a, modulation := m }).vm
      (f { vm := s.vm, audio := a, modulation := m }).audio (f { vm := s.vm, audio := a, modulation := m }).modulation) := by
  simp only [evCommand, State.engine_of_pair h]; rfl

theorem evCommand_of_broken {s : State} (f : Engine → Engine) (h : PairBroken s) :
    evCommand f s = .next (s.failed .badHandle 0xFFFFFFFF#32) := by
  simp only [evCommand, State.engine_eq_none.2 h]; rfl

/-- A pair is live or broken. -/
theorem pair_or_broken (s : State) : PairBroken s ∨ ∃ a m, PairOf s a m := by
  cases he : s.engine with
  | none => exact .inl (State.engine_eq_none.1 he)
  | some e => exact .inr ⟨_, _, (State.engine_eq_some.1 he).2⟩

/-- DESTROY (R152) on a valid handle. -/
theorem execDestroy_of_handle {s : State} {h : Byte} {n : Nat} {c : Chip} (p : F32) (hh : HandleOf s h n c) :
    execDestroy h p s = .next { s with pool := s.pool.set n none, rsp := [.ok fPos0] } := by
  simp only [execDestroy, State.lookup_eq_some.2 hh]; rfl

theorem execDestroy_of_invalid {s : State} {h : Byte} (p : F32) (hh : HandleInvalid s h) :
    execDestroy h p s = .next (s.failed .badHandle 0xBF800000#32) := by
  simp only [execDestroy, State.lookup_eq_none.2 hh]; rfl

/-- CLK (R265) on a live pair. -/
theorem execClk_of_pair {s : State} {a m : Chip} (h : PairOf s a m) :
    execClk s = .next ((s.withEngine (runBlock s.cfg { vm := s.vm, audio := a, modulation := m }).1).withRsp
      ((runBlock s.cfg { vm := s.vm, audio := a, modulation := m }).2.map .ok)) := by
  simp only [execClk, State.engine_of_pair h]

theorem execClk_of_broken {s : State} (h : PairBroken s) :
    execClk s = .next (s.failed .badHandle 0xBF800000#32) := by
  simp only [execClk, State.engine_eq_none.2 h]; rfl

/-- The least dead slot (R151) is dead and every slot below it is live. -/
theorem leastDead_eq_some {l : List (Option Chip)} {n : Nat} :
    leastDead l = some n ↔ l[n]? = some none ∧ ∀ j, j < n → ∃ c, l[j]? = some (some c) := by
  induction l generalizing n with
  | nil => simp [leastDead]
  | cons x rest ih =>
    cases x with
    | none =>
      cases n with
      | zero => simp [leastDead]
      | succ k =>
        simp only [leastDead, Option.some.injEq]
        constructor
        · intro h; omega
        · rintro ⟨-, h⟩; obtain ⟨c, hc⟩ := h 0 (by omega); simp at hc
    | some c =>
      cases n with
      | zero => simp [leastDead]
      | succ k =>
        simp only [leastDead, Option.map_eq_some_iff, Nat.add_right_cancel_iff, exists_eq_right, List.getElem?_cons_succ, ih]
        constructor
        · rintro ⟨h1, h2⟩
          refine ⟨h1, fun j hj => ?_⟩
          cases j with
          | zero => exact ⟨c, rfl⟩
          | succ j => simpa using h2 j (by omega)
        · rintro ⟨h1, h2⟩
          exact ⟨h1, fun j hj => by simpa using h2 (j + 1) (by omega)⟩

/-- There is no dead slot exactly when every slot is live. -/
theorem leastDead_eq_none {l : List (Option Chip)} :
    leastDead l = none ↔ ∀ j, j < l.length → ∃ c, l[j]? = some (some c) := by
  induction l with
  | nil => simp [leastDead]
  | cons x rest ih =>
    cases x with
    | none =>
      simp only [leastDead, reduceCtorEq, false_iff, not_forall]
      exact ⟨0, by simp, by simp⟩
    | some c =>
      simp only [leastDead, Option.map_eq_none_iff, ih, List.length_cons]
      constructor
      · intro h j hj
        cases j with
        | zero => exact ⟨c, rfl⟩
        | succ j => simpa using h j (by omega)
      · intro h j hj
        simpa using h (j + 1) (by omega)

/-- A register write (R110) touches only the register bank, unless it resets the chip (R147). -/
theorem chipWrite_of_not_control {r : Reg} (hr : r ≠ .control) (c : Chip) (d : Byte) :
    (chipWrite c r d).voices = c.voices ∧ (chipWrite c r d).params = c.params
      ∧ (chipWrite c r d).filter = c.filter ∧ (chipWrite c r d).sample = c.sample := by
  cases r <;> first | exact ⟨rfl, rfl, rfl, rfl⟩ | exact absurd rfl hr

/-- A register write keeps the analogue parameters, whatever the register (R148). -/
@[simp] theorem chipWrite_params (c : Chip) (r : Reg) (d : Byte) : (chipWrite c r d).params = c.params := by
  cases r <;> first | rfl | (simp only [chipWrite, writeControl]; split <;> rfl)

/-- A write of a voice register stores the byte. -/
theorem chipWrite_voice (c : Chip) (v : VoiceId) (r : VReg) (d : Byte) :
    chipWrite c (.voice v r) d = c.setReg (.voice v r) d := rfl

/-- A CONTROL write without the reset bit stores the byte (R147). -/
theorem chipWrite_control_of_clear (c : Chip) {d : Byte} (h : d.msb = false) :
    chipWrite c .control d = c.setReg .control d := by
  simp [chipWrite, writeControl, h]

/-- A CONTROL write with the reset bit resets the chip and stores the byte without it (R147). -/
theorem chipWrite_control_of_reset (c : Chip) {d : Byte} (h : d.msb = true) :
    chipWrite c .control d = (chipReset c).setReg .control (d &&& 0x7F#8) := by
  simp [chipWrite, writeControl, h]

/-- A failure changes only the response (R335). -/
theorem failWith_eq (s : State) (cls : CmdClass) (code : FailCode) :
    failWith s cls code = .next (s.failed code (sentinel cls)) := rfl

/-- Everything a word that is no command can do: one failure (R100). -/
theorem rejectWord_cases (e : DecodeError) (s : State) :
    ∃ cls code, rejectWord e s = .next (s.failed code (sentinel cls)) := by
  cases e with
  | badCmd cls => exact ⟨cls, .badCmd, rfl⟩
  | badAddr h =>
    cases hl : s.lookup h with
    | none => exact ⟨.wr, .badHandle, by simp only [rejectWord, hl]; rfl⟩
    | some x => exact ⟨.wr, .badAddr, by simp only [rejectWord, hl]; rfl⟩

end Sys2Proof.Machine
end

