-- ==== Sys2Proof/Laws/PerInstr.lean ====
section
/-! SUPPORT. The statements made for each instruction as syntax: its word has the bits its opcode-table row fixes. -/

namespace Sys2Proof

/-- A word of format WR under the mask of its rows (R82). -/
theorem encodeWr_and_mask (a h d : Byte) : encodeWr a h d &&& 0xFF00FFFFFFFFFF00#64 = a.setWidth 64 <<< 40 := by
  apply BitVec.eq_of_getLsbD_eq
  intro i hi
  unfold encodeWr mkWord
  interval_cases i <;> (rw [BitVec.getLsbD_and]; repeat rw [BitVec.getLsbD_append]) <;> simp

/-- A word of format IO under the mask of its rows (R83). -/
theorem encodeIo_and_mask (c h : Byte) (p : F32) :
    encodeIo c h p &&& 0xFF00FFFF00000000#64 = (c.setWidth 64 <<< 40) ||| 0x1000000000000000#64 := by
  apply BitVec.eq_of_getLsbD_eq
  intro i hi
  unfold encodeIo mkWord
  interval_cases i <;> (rw [BitVec.getLsbD_and]; repeat rw [BitVec.getLsbD_append]) <;> simp

/-- A note event's word under the mask of its rows (R85). -/
theorem encodeNote_and_mask (kind : Byte) (key : Key) (vel : Velocity) :
    encodeNote kind key vel &&& 0xFFFFFFFFFFFF8080#64 = (kind.setWidth 64 <<< 40) ||| 0x2000000000000000#64 := by
  apply BitVec.eq_of_getLsbD_eq
  intro i hi
  unfold encodeNote mkWord
  interval_cases i <;> (rw [BitVec.getLsbD_and]; repeat rw [BitVec.getLsbD_append]) <;> simp

/-- A controller change's word under the mask of its row (R85). -/
theorem encodeCtrl_and_mask (idx : BitVec 7) (val : BitVec 14) :
    encodeCtrl idx val &&& 0xFFFFFFFFFF80C000#64 = 0x2000020000000000#64 := by
  apply BitVec.eq_of_getLsbD_eq
  intro i hi
  unfold encodeCtrl mkWord
  interval_cases i <;> (rw [BitVec.getLsbD_and]; repeat rw [BitVec.getLsbD_append]) <;> simp

/-- The word of a command lies in the command's row of the opcode table (R99). -/
def Laws.EncodesInRow.Statement (i : Instr) : Prop := encode i &&& rowMask i = rowMatch i

theorem Laws.EncodesInRow.wrV1FreqLo (h d : Byte) : Laws.EncodesInRow.Statement (.wrV1FreqLo h d) := encodeWr_and_mask _ h d
theorem Laws.EncodesInRow.wrV1FreqHi (h d : Byte) : Laws.EncodesInRow.Statement (.wrV1FreqHi h d) := encodeWr_and_mask _ h d
theorem Laws.EncodesInRow.wrV1PwLo (h d : Byte) : Laws.EncodesInRow.Statement (.wrV1PwLo h d) := encodeWr_and_mask _ h d
theorem Laws.EncodesInRow.wrV1PwHi (h d : Byte) : Laws.EncodesInRow.Statement (.wrV1PwHi h d) := encodeWr_and_mask _ h d
theorem Laws.EncodesInRow.wrV1Ctrl (h d : Byte) : Laws.EncodesInRow.Statement (.wrV1Ctrl h d) := encodeWr_and_mask _ h d
theorem Laws.EncodesInRow.wrV1Ad (h d : Byte) : Laws.EncodesInRow.Statement (.wrV1Ad h d) := encodeWr_and_mask _ h d
theorem Laws.EncodesInRow.wrV1Sr (h d : Byte) : Laws.EncodesInRow.Statement (.wrV1Sr h d) := encodeWr_and_mask _ h d
theorem Laws.EncodesInRow.wrV2FreqLo (h d : Byte) : Laws.EncodesInRow.Statement (.wrV2FreqLo h d) := encodeWr_and_mask _ h d
theorem Laws.EncodesInRow.wrV2FreqHi (h d : Byte) : Laws.EncodesInRow.Statement (.wrV2FreqHi h d) := encodeWr_and_mask _ h d
theorem Laws.EncodesInRow.wrV2PwLo (h d : Byte) : Laws.EncodesInRow.Statement (.wrV2PwLo h d) := encodeWr_and_mask _ h d
theorem Laws.EncodesInRow.wrV2PwHi (h d : Byte) : Laws.EncodesInRow.Statement (.wrV2PwHi h d) := encodeWr_and_mask _ h d
theorem Laws.EncodesInRow.wrV2Ctrl (h d : Byte) : Laws.EncodesInRow.Statement (.wrV2Ctrl h d) := encodeWr_and_mask _ h d
theorem Laws.EncodesInRow.wrV2Ad (h d : Byte) : Laws.EncodesInRow.Statement (.wrV2Ad h d) := encodeWr_and_mask _ h d
theorem Laws.EncodesInRow.wrV2Sr (h d : Byte) : Laws.EncodesInRow.Statement (.wrV2Sr h d) := encodeWr_and_mask _ h d
theorem Laws.EncodesInRow.wrV3FreqLo (h d : Byte) : Laws.EncodesInRow.Statement (.wrV3FreqLo h d) := encodeWr_and_mask _ h d
theorem Laws.EncodesInRow.wrV3FreqHi (h d : Byte) : Laws.EncodesInRow.Statement (.wrV3FreqHi h d) := encodeWr_and_mask _ h d
theorem Laws.EncodesInRow.wrV3PwLo (h d : Byte) : Laws.EncodesInRow.Statement (.wrV3PwLo h d) := encodeWr_and_mask _ h d
theorem Laws.EncodesInRow.wrV3PwHi (h d : Byte) : Laws.EncodesInRow.Statement (.wrV3PwHi h d) := encodeWr_and_mask _ h d
theorem Laws.EncodesInRow.wrV3Ctrl (h d : Byte) : Laws.EncodesInRow.Statement (.wrV3Ctrl h d) := encodeWr_and_mask _ h d
theorem Laws.EncodesInRow.wrV3Ad (h d : Byte) : Laws.EncodesInRow.Statement (.wrV3Ad h d) := encodeWr_and_mask _ h d
theorem Laws.EncodesInRow.wrV3Sr (h d : Byte) : Laws.EncodesInRow.Statement (.wrV3Sr h d) := encodeWr_and_mask _ h d
theorem Laws.EncodesInRow.wrFcLo (h d : Byte) : Laws.EncodesInRow.Statement (.wrFcLo h d) := encodeWr_and_mask _ h d
theorem Laws.EncodesInRow.wrFcHi (h d : Byte) : Laws.EncodesInRow.Statement (.wrFcHi h d) := encodeWr_and_mask _ h d
theorem Laws.EncodesInRow.wrResFilt (h d : Byte) : Laws.EncodesInRow.Statement (.wrResFilt h d) := encodeWr_and_mask _ h d
theorem Laws.EncodesInRow.wrModeVol (h d : Byte) : Laws.EncodesInRow.Statement (.wrModeVol h d) := encodeWr_and_mask _ h d
theorem Laws.EncodesInRow.wrRsv19 (h d : Byte) : Laws.EncodesInRow.Statement (.wrRsv19 h d) := encodeWr_and_mask _ h d
theorem Laws.EncodesInRow.wrRsv1A (h d : Byte) : Laws.EncodesInRow.Statement (.wrRsv1A h d) := encodeWr_and_mask _ h d
theorem Laws.EncodesInRow.wrOsc3 (h d : Byte) : Laws.EncodesInRow.Statement (.wrOsc3 h d) := encodeWr_and_mask _ h d
theorem Laws.EncodesInRow.wrEnv3 (h d : Byte) : Laws.EncodesInRow.Statement (.wrEnv3 h d) := encodeWr_and_mask _ h d
theorem Laws.EncodesInRow.wrControl (h d : Byte) : Laws.EncodesInRow.Statement (.wrControl h d) := encodeWr_and_mask _ h d
theorem Laws.EncodesInRow.create (h : Byte) (p : F32) : Laws.EncodesInRow.Statement (.create h p) := encodeIo_and_mask _ h p
theorem Laws.EncodesInRow.destroy (h : Byte) (p : F32) : Laws.EncodesInRow.Statement (.destroy h p) := encodeIo_and_mask _ h p
theorem Laws.EncodesInRow.advance (h : Byte) (p : F32) : Laws.EncodesInRow.Statement (.advance h p) := encodeIo_and_mask _ h p
theorem Laws.EncodesInRow.setGain (h : Byte) (p : F32) : Laws.EncodesInRow.Statement (.setGain h p) := encodeIo_and_mask _ h p
theorem Laws.EncodesInRow.setDetune (h : Byte) (p : F32) : Laws.EncodesInRow.Statement (.setDetune h p) := encodeIo_and_mask _ h p
theorem Laws.EncodesInRow.setLeakage (h : Byte) (p : F32) : Laws.EncodesInRow.Statement (.setLeakage h p) := encodeIo_and_mask _ h p
theorem Laws.EncodesInRow.setSnr (h : Byte) (p : F32) : Laws.EncodesInRow.Statement (.setSnr h p) := encodeIo_and_mask _ h p
theorem Laws.EncodesInRow.setDcbias (h : Byte) (p : F32) : Laws.EncodesInRow.Statement (.setDcbias h p) := encodeIo_and_mask _ h p
theorem Laws.EncodesInRow.setPolemix (h : Byte) (p : F32) : Laws.EncodesInRow.Statement (.setPolemix h p) := encodeIo_and_mask _ h p
theorem Laws.EncodesInRow.setClockrate (h : Byte) (p : F32) : Laws.EncodesInRow.Statement (.setClockrate h p) := encodeIo_and_mask _ h p
theorem Laws.EncodesInRow.noteOn (key : Key) (vel : Velocity) : Laws.EncodesInRow.Statement (.noteOn key vel) :=
  encodeNote_and_mask _ key vel
theorem Laws.EncodesInRow.noteOff (key : Key) (vel : Velocity) : Laws.EncodesInRow.Statement (.noteOff key vel) :=
  encodeNote_and_mask _ key vel
theorem Laws.EncodesInRow.ctrlChange (idx : BitVec 7) (val : BitVec 14) :
    Laws.EncodesInRow.Statement (.ctrlChange idx val) := encodeCtrl_and_mask idx val
theorem Laws.EncodesInRow.clk : Laws.EncodesInRow.Statement .clk := rfl

end Sys2Proof
end

