-- ==== Sys2Proof/Laws/Step.lean ====
section
/-! SUPPORT. What a step can do (R70, R71): the three cases of a step, and that performing a word neither reads nor changes
the port, the contexts and the instantiation. -/

namespace Sys2Proof.Machine

open Sys2Proof

/-- The outcome `f` gives is a next state that does not depend on what waits at the port or on what the contexts do; it
keeps both, and the instantiation. -/
abbrev PortBlind (f : State → Host.Outcome State Fault Refusal) (s : State) : Prop :=
  ∃ t : State, t.cfg = s.cfg ∧ ∀ (p : List CmdWord) (b : Agents),
    f { s with port := p, agents := b } = .next { t with port := p, agents := b }

theorem wrCommand_portBlind (r : Reg) (h d : Byte) (s : State) : PortBlind (wrCommand r h d) s := by
  cases hl : s.lookup h with
  | none => exact ⟨s.failed .badHandle (sentinel .wr), rfl, fun p b => by
      rw [wrCommand, show State.lookup { s with port := p, agents := b } h = none from hl]; rfl⟩
  | some x => exact ⟨(s.setChip x.1 (chipWrite x.2 r d)).withRsp [.ok ((x.2.reg r).setWidth 32)], rfl, fun p b => by
      rw [wrCommand, show State.lookup { s with port := p, agents := b } h = some x from hl]; rfl⟩

theorem ioCommand_portBlind (f : Chip → Chip × F32) (h : Byte) (s : State) : PortBlind (ioCommand f h) s := by
  cases hl : s.lookup h with
  | none => exact ⟨s.failed .badHandle (sentinel .io), rfl, fun p b => by
      rw [ioCommand, show State.lookup { s with port := p, agents := b } h = none from hl]; rfl⟩
  | some x => exact ⟨(s.setChip x.1 (f x.2).1).withRsp [.ok (f x.2).2], rfl, fun p b => by
      rw [ioCommand, show State.lookup { s with port := p, agents := b } h = some x from hl]; rfl⟩

theorem evCommand_portBlind (f : Engine → Engine) (s : State) : PortBlind (evCommand f) s := by
  cases hl : s.engine with
  | none => exact ⟨s.failed .badHandle (sentinel .ev), rfl, fun p b => by
      rw [evCommand, show State.engine { s with port := p, agents := b } = none from hl]; rfl⟩
  | some e => exact ⟨(s.withEngine (f e)).withRsp [.ok 0#32], rfl, fun p b => by
      rw [evCommand, show State.engine { s with port := p, agents := b } = some e from hl]; rfl⟩

theorem execCreate_portBlind (h : Byte) (q : F32) (s : State) : PortBlind (execCreate h q) s := by
  cases hl : leastDead s.pool with
  | none => exact ⟨s.failed .poolFull (sentinel .io), rfl, fun p b => by
      rw [execCreate, show leastDead (State.pool { s with port := p, agents := b }) = none from hl]; rfl⟩
  | some n => exact ⟨(s.setChip n chipCreated).withRsp [.ok (i2f n)], rfl, fun p b => by
      rw [execCreate, show leastDead (State.pool { s with port := p, agents := b }) = some n from hl]; rfl⟩

theorem execDestroy_portBlind (h : Byte) (q : F32) (s : State) : PortBlind (execDestroy h q) s := by
  cases hl : s.lookup h with
  | none => exact ⟨s.failed .badHandle (sentinel .io), rfl, fun p b => by
      rw [execDestroy, show State.lookup { s with port := p, agents := b } h = none from hl]; rfl⟩
  | some x => exact ⟨(s.killChip x.1).withRsp [.ok fPos0], rfl, fun p b => by
      rw [execDestroy, show State.lookup { s with port := p, agents := b } h = some x from hl]; rfl⟩

theorem execCtrlChange_portBlind (idx : BitVec 7) (val : BitVec 14) (s : State) : PortBlind (execCtrlChange idx val) s := by
  by_cases hi : 99 < idx.toNat
  · exact ⟨s.failed .badCtrl (sentinel .ev), rfl, fun p b => by rw [execCtrlChange, if_pos hi]; rfl⟩
  · obtain ⟨t, hc, h⟩ := evCommand_portBlind (fun e => ctrlEffect e idx.toNat val) s
    exact ⟨t, hc, fun p b => by rw [execCtrlChange, if_neg hi, h]⟩

theorem execClk_portBlind (s : State) : PortBlind execClk s := by
  cases hl : s.engine with
  | none => exact ⟨s.failed .badHandle (sentinel .clk), rfl, fun p b => by
      rw [execClk, show State.engine { s with port := p, agents := b } = none from hl]; rfl⟩
  | some e => exact ⟨(s.withEngine (runBlock s.cfg e).1).withRsp ((runBlock s.cfg e).2.map .ok), rfl, fun p b => by
      rw [execClk, show State.engine { s with port := p, agents := b } = some e from hl]; rfl⟩

theorem rejectWord_portBlind (e : DecodeError) (s : State) : PortBlind (rejectWord e) s := by
  cases e with
  | badCmd cls => exact ⟨s.failed .badCmd (sentinel cls), rfl, fun _ _ => rfl⟩
  | badAddr h =>
    cases hl : s.lookup h with
    | none => exact ⟨s.failed .badHandle (sentinel .wr), rfl, fun p b => by
        rw [rejectWord, show State.lookup { s with port := p, agents := b } h = none from hl]; rfl⟩
    | some x => exact ⟨s.failed .badAddr (sentinel .wr), rfl, fun p b => by
        rw [rejectWord, show State.lookup { s with port := p, agents := b } h = some x from hl]; rfl⟩

/-- Every command is blind to the port and the contexts. -/
theorem exec_portBlind (i : Instr) (s : State) : PortBlind (exec i) s := by
  cases i with
  | create h q => exact execCreate_portBlind h q s
  | destroy h q => exact execDestroy_portBlind h q s
  | advance h q => exact ioCommand_portBlind (fun c => (tick s.cfg c, (tick s.cfg c).sample)) h s
  | setGain h q => exact ioCommand_portBlind _ h s
  | setDetune h q => exact ioCommand_portBlind _ h s
  | setLeakage h q => exact ioCommand_portBlind _ h s
  | setSnr h q => exact ioCommand_portBlind _ h s
  | setDcbias h q => exact ioCommand_portBlind _ h s
  | setPolemix h q => exact ioCommand_portBlind _ h s
  | setClockrate h q => exact ioCommand_portBlind _ h s
  | noteOn key vel => exact evCommand_portBlind _ s
  | noteOff key vel => exact evCommand_portBlind _ s
  | ctrlChange idx val => exact execCtrlChange_portBlind idx val s
  | clk => exact execClk_portBlind s
  | _ => exact wrCommand_portBlind _ _ _ s

/-- So is every command word, accepted by the decoder or not. -/
theorem perform_portBlind (w : CmdWord) (s : State) : PortBlind (perform w) s := by
  cases hd : decode w with
  | ok i =>
    obtain ⟨t, hc, h⟩ := exec_portBlind i s
    exact ⟨t, hc, fun p b => by rw [perform, hd]; exact h p b⟩
  | error e =>
    obtain ⟨t, hc, h⟩ := rejectWord_portBlind e s
    exact ⟨t, hc, fun p b => by rw [perform, hd]; exact h p b⟩

/-- What a step can do: a context's move, the core's move with nothing waiting, or the first word performed. -/
theorem step_cases (s : State) :
    (∃ c, s.agents.next = .arrive c ∧ step s = .next (s.advance.accept c)) ∨
    (s.agents.next = .perform ∧ s.port = [] ∧ step s = .next s.advance) ∨
    (∃ w rest, s.agents.next = .perform ∧ s.port = w :: rest
      ∧ step s = perform w { s.advance with port := rest }) := by
  cases hn : s.agents.next with
  | arrive c => exact .inl ⟨c, rfl, by rw [step, hn]⟩
  | perform =>
    cases hp : s.port with
    | nil => exact .inr (.inl ⟨rfl, rfl, by rw [step, hn]; simp only; rw [performFirst, State.advance_port, hp]⟩)
    | cons w rest =>
      exact .inr (.inr ⟨w, rest, rfl, rfl, by rw [step, hn]; simp only; rw [performFirst, State.advance_port, hp]⟩)

/-- A step that performs `w` (R70). -/
theorem step_of_commandNext {s s' : State} {w : CmdWord} (h : CommandNext s w s') : step s = perform w s' := by
  obtain ⟨hn, hp, hs⟩ := h
  rw [step, hn]; simp only; rw [performFirst, State.advance_port, hp]; exact congrArg (perform w) hs.symm

end Sys2Proof.Machine
end

