-- ==== Sys2Proof/Laws/Tick.lean ====
section
/-! SUPPORT. What each step of the tick does to each field, and what the whole tick does. -/

namespace Sys2Proof.Machine

open Sys2Proof

/-! ### What a step leaves alone -/

@[simp] theorem tickNoise_get (c : Chip) (v : VoiceId) :
    (tickNoise c).voices.get v = noiseStep (c.voices.get v) := PerVoice.get_mapVoice _ _ _

@[simp] theorem tickPhase_get (k : Cfg) (c : Chip) (v : VoiceId) :
    (tickPhase k c).voices.get v =
      if flagTest c v then oscIdle (c.voices.get v) else oscAdvance (inc k c v) (dt k c v) (c.voices.get v) :=
  PerVoice.get_mapVoice _ _ _

@[simp] theorem tickSync_get (c : Chip) (v : VoiceId) :
    (tickSync c).voices.get v =
      if flagSync c v && (c.voices.get (prevVoice v)).wrap then oscSync (c.voices.get v) else c.voices.get v :=
  PerVoice.get_mapVoice _ _ _

@[simp] theorem tickWave_get (c : Chip) (v : VoiceId) :
    (tickWave c).voices.get v = { c.voices.get v with centre := BitVec.ofInt 15 (centreValue c v) } :=
  PerVoice.get_mapVoice _ _ _

@[simp] theorem tickEnvelope_get (k : Cfg) (c : Chip) (v : VoiceId) :
    (tickEnvelope k c).voices.get v = envStep (envInput k c v) (c.voices.get v) := PerVoice.get_mapVoice _ _ _

@[simp] theorem tickOutput_get (c : Chip) (v : VoiceId) :
    (tickOutput c).voices.get v = digitalOut (c.voices.get v) := PerVoice.get_mapVoice _ _ _

@[simp] theorem tickHold_get (c : Chip) (v : VoiceId) :
    (tickHold c).voices.get v = { c.voices.get v with held := (c.voices.get v).centre } :=
  PerVoice.get_mapVoice _ _ _

@[simp] theorem tickAnalogue_voices (c : Chip) : (tickAnalogue c).voices = c.voices := rfl

/-- The state of the chip when step T4 reads it: after noise, phase and sync. -/
def waveInput (k : Cfg) (c : Chip) : Chip := tickSync (tickPhase k (tickNoise c))

theorem waveInput_get (k : Cfg) (c : Chip) (v : VoiceId) :
    (waveInput k c).voices.get v = (tickSync (tickPhase k (tickNoise c))).voices.get v := rfl

@[simp] theorem waveInput_regs (k : Cfg) (c : Chip) : (waveInput k c).regs = c.regs := rfl
@[simp] theorem waveInput_params (k : Cfg) (c : Chip) : (waveInput k c).params = c.params := rfl

/-- A register keeps its byte over the first six steps but for the taps. -/
theorem tickDigital_regs (k : Cfg) (c : Chip) :
    (tickDigital k c).regs =
      (c.regs.set 0x1B (osc3Tap ((tickDigital k c).voices.v3.centre.toInt))).set 0x1C
        (tickDigital k c).voices.v3.cnt := rfl

@[simp] theorem tickDigital_params (k : Cfg) (c : Chip) : (tickDigital k c).params = c.params := rfl
@[simp] theorem tickDigital_filter (k : Cfg) (c : Chip) : (tickDigital k c).filter = c.filter := rfl

@[simp] theorem tick_params (k : Cfg) (c : Chip) : (tick k c).params = c.params := rfl

theorem tick_regs (k : Cfg) (c : Chip) :
    (tick k c).regs =
      (c.regs.set 0x1B (osc3Tap ((tick k c).voices.v3.centre.toInt))).set 0x1C (tick k c).voices.v3.cnt := rfl

/-- A tick changes no register but the two taps (R153). -/
theorem tick_reg_of_ne (k : Cfg) (c : Chip) {a : Nat} (ha : a < 32) (h1 : a ≠ 0x1B) (h2 : a ≠ 0x1C) :
    (tick k c).regs[a] = c.regs[a] := by
  simp [tick_regs, Ne.symm h1, Ne.symm h2]

theorem tick_reg_voice (k : Cfg) (c : Chip) (v : VoiceId) (r : VReg) :
    (tick k c).reg (.voice v r) = c.reg (.voice v r) :=
  tick_reg_of_ne k c _ (by cases v <;> cases r <;> decide) (by cases v <;> cases r <;> decide)

theorem tick_reg_control (k : Cfg) (c : Chip) : (tick k c).reg .control = c.reg .control :=
  tick_reg_of_ne k c _ (by decide) (by decide)

/-! ### The envelope touches four fields and reads four fields -/

theorem envGate_eq (i : EnvInput) (o : Voice) :
    envGate i o = { o with est := (envGate i o).est, hc := (envGate i o).hc, sub := (envGate i o).sub } := by
  unfold envGate; split
  · rfl
  · split <;> rfl

theorem envStage_eq (i : EnvInput) (o : Voice) :
    envStage i o =
      { o with est := (envStage i o).est, cnt := (envStage i o).cnt, hc := (envStage i o).hc, sub := (envStage i o).sub } := by
  obtain ⟨_, _, _, _, _, _, _, est, _, _, _, _, _, _⟩ := o
  cases est
  · simp only [envStage, envAttack]; split
    · split <;> rfl
    · rfl
  · simp only [envStage, envDecay]; split
    · rfl
    · split
      · split <;> rfl
      · rfl
  · simp only [envStage, envSustain]; split <;> rfl
  · simp only [envStage, envRelease]; split
    · split <;> rfl
    · rfl

/-- The envelope step changes only the envelope's four fields. -/
theorem envStep_eq (i : EnvInput) (o : Voice) :
    envStep i o =
      { o with est := (envStep i o).est, cnt := (envStep i o).cnt, hc := (envStep i o).hc, sub := (envStep i o).sub } := by
  unfold envStep
  rw [envStage_eq, envGate_eq]

@[simp] theorem envStep_phase (i : EnvInput) (o : Voice) : (envStep i o).phase = o.phase := by rw [envStep_eq]
@[simp] theorem envStep_phaseP (i : EnvInput) (o : Voice) : (envStep i o).phaseP = o.phaseP := by rw [envStep_eq]
@[simp] theorem envStep_phaseT (i : EnvInput) (o : Voice) : (envStep i o).phaseT = o.phaseT := by rw [envStep_eq]
@[simp] theorem envStep_wrap (i : EnvInput) (o : Voice) : (envStep i o).wrap = o.wrap := by rw [envStep_eq]
@[simp] theorem envStep_centre (i : EnvInput) (o : Voice) : (envStep i o).centre = o.centre := by rw [envStep_eq]
@[simp] theorem envStep_held (i : EnvInput) (o : Voice) : (envStep i o).held = o.held := by rw [envStep_eq]
@[simp] theorem envStep_d (i : EnvInput) (o : Voice) : (envStep i o).d = o.d := by rw [envStep_eq]
@[simp] theorem envStep_n1 (i : EnvInput) (o : Voice) : (envStep i o).n1 = o.n1 := by rw [envStep_eq]
@[simp] theorem envStep_n2 (i : EnvInput) (o : Voice) : (envStep i o).n2 = o.n2 := by rw [envStep_eq]
@[simp] theorem envStep_nout (i : EnvInput) (o : Voice) : (envStep i o).nout = o.nout := by rw [envStep_eq]

/-- A voice with the envelope of another. -/
def withEnv (o e : Voice) : Voice := { o with est := e.est, cnt := e.cnt, hc := e.hc, sub := e.sub }

/-- The envelope step reads only the envelope's four fields. -/
theorem envStep_withEnv (i : EnvInput) (o e : Voice) : envStep i (withEnv o e) = withEnv o (envStep i e) := by
  obtain ⟨p, pp, pt, w, ce, he, d, est, cnt, hc, sub, n1, n2, no⟩ := e
  have g : envGate i (withEnv o ⟨p, pp, pt, w, ce, he, d, est, cnt, hc, sub, n1, n2, no⟩)
      = withEnv o (envGate i ⟨p, pp, pt, w, ce, he, d, est, cnt, hc, sub, n1, n2, no⟩) := by
    obtain ⟨gate, _, _, _, _, _⟩ := i
    cases gate <;> cases est <;> rfl
  have st : ∀ e' : Voice, envStage i (withEnv o e') = withEnv o (envStage i e') := by
    rintro ⟨p, pp, pt, w, ce, he, d, est, cnt, hc, sub, n1, n2, no⟩
    cases est
    · by_cases h1 : i.attack.hold ≤ (hc + 1#16).toNat <;> by_cases h2 : min 255 (cnt.toNat + i.attack.step) = 255 <;>
        simp only [envStage, envAttack, withEnv, h1, h2, if_true, if_false]
    · by_cases h1 : cnt.toNat ≤ i.sustain.toNat <;>
        by_cases h2 : i.decay.hold * decayMult i.mult cnt ≤ (sub + 1#32).toNat <;>
        by_cases h3 : max i.sustain.toNat (cnt.toNat - i.decay.step) = i.sustain.toNat <;>
        simp only [envStage, envDecay, withEnv, h1, h2, h3, if_true, if_false]
    · by_cases h1 : i.sustain.toNat < cnt.toNat <;> simp only [envStage, envSustain, withEnv, h1, if_true, if_false]
    · by_cases h1 : 0 < cnt.toNat <;> by_cases h2 : i.release.hold * decayMult i.mult cnt ≤ (sub + 1#32).toNat <;>
        simp only [envStage, envRelease, withEnv, h1, h2, if_true, if_false]
  unfold envStep
  rw [g, st]

/-! ### The whole tick, voice by voice -/

/-- The voice after a tick: noise, phase, sync, waveform, envelope, digital output and held sample. -/
theorem tick_get (k : Cfg) (c : Chip) (v : VoiceId) :
    (tick k c).voices.get v =
      (let o := (waveInput k c).voices.get v
       let x := BitVec.ofInt 15 (centreValue (waveInput k c) v)
       let e := envStep (envInput k c v) { o with centre := x }
       { e with d := BitVec.ofInt 23 (x.toInt * e.cnt.toNat), held := x }) := by
  have h : (tick k c).voices.get v = { digitalOut (envStep (envInput k c v)
      { (waveInput k c).voices.get v with centre := BitVec.ofInt 15 (centreValue (waveInput k c) v) }) with
      held := (digitalOut (envStep (envInput k c v)
      { (waveInput k c).voices.get v with centre := BitVec.ofInt 15 (centreValue (waveInput k c) v) })).centre } := by
    cases v <;> rfl
  rw [h]
  simp only [digitalOut, envStep_centre]

/-- What step T4 reads of a voice: the noise values, the accumulators, and the rest as the last tick left it. -/
theorem waveInput_eq (k : Cfg) (c : Chip) (v : VoiceId) :
    (waveInput k c).voices.get v =
      { c.voices.get v with
        n1 := (noiseStep (c.voices.get v)).n1
        n2 := (noiseStep (c.voices.get v)).n2
        nout := (noiseStep (c.voices.get v)).nout
        phase := ((waveInput k c).voices.get v).phase
        phaseP := ((waveInput k c).voices.get v).phaseP
        phaseT := ((waveInput k c).voices.get v).phaseT
        wrap := ((waveInput k c).voices.get v).wrap } := by
  have hP : (tickPhase k (tickNoise c)).voices.get v =
      { noiseStep (c.voices.get v) with
        phase := ((tickPhase k (tickNoise c)).voices.get v).phase
        phaseP := ((tickPhase k (tickNoise c)).voices.get v).phaseP
        phaseT := ((tickPhase k (tickNoise c)).voices.get v).phaseT
        wrap := ((tickPhase k (tickNoise c)).voices.get v).wrap } := by
    rw [tickPhase_get, tickNoise_get]; split <;> rfl
  rw [waveInput_get, tickSync_get]
  split
  · rw [hP]; rfl
  · rw [hP]; rfl

/-- The `wrap` bit of this tick (R173, R175, R176): T3 does not change it. -/
theorem waveInput_wrap (k : Cfg) (c : Chip) (v : VoiceId) :
    ((waveInput k c).voices.get v).wrap =
      (!flagTest c v && decide (2 ^ 24 ≤ (c.voices.get v).phase.toNat + (inc k c v).toNat)) := by
  have hP : ((tickPhase k (tickNoise c)).voices.get v).wrap =
      (!flagTest c v && decide (2 ^ 24 ≤ (c.voices.get v).phase.toNat + (inc k c v).toNat)) := by
    rw [tickPhase_get, tickNoise_get]
    cases hf : flagTest (tickNoise c) v
    · have : flagTest c v = false := hf
      simp only [this, Bool.false_eq_true, if_false, Bool.not_false, Bool.true_and]; rfl
    · have : flagTest c v = true := hf
      simp only [this, if_true, Bool.not_true, Bool.false_and]; rfl
  rw [waveInput_get, tickSync_get, ← hP]
  split <;> rfl

@[simp] theorem tick_wrap (k : Cfg) (c : Chip) (v : VoiceId) :
    ((tick k c).voices.get v).wrap = ((waveInput k c).voices.get v).wrap := by
  rw [tick_get]; simp

@[simp] theorem tick_phase (k : Cfg) (c : Chip) (v : VoiceId) :
    ((tick k c).voices.get v).phase = ((waveInput k c).voices.get v).phase := by
  rw [tick_get]; simp

@[simp] theorem tick_phaseP (k : Cfg) (c : Chip) (v : VoiceId) :
    ((tick k c).voices.get v).phaseP = ((waveInput k c).voices.get v).phaseP := by
  rw [tick_get]; simp

@[simp] theorem tick_phaseT (k : Cfg) (c : Chip) (v : VoiceId) :
    ((tick k c).voices.get v).phaseT = ((waveInput k c).voices.get v).phaseT := by
  rw [tick_get]; simp

/-- The phases of a voice that is not reset in the tick, or of one that is (R173 to R175). -/
theorem waveInput_phases (k : Cfg) (c : Chip) (v : VoiceId) :
    let w := (waveInput k c).voices.get v
    let o := c.voices.get v
    let i := inc k c v
    (w.phase, w.phaseP, w.phaseT) =
      if flagTest c v = true ∨ (flagSync c v = true ∧ ((waveInput k c).voices.get (prevVoice v)).wrap = true) then
        (0#24, 0#24, 0#24)
      else (o.phase + i, o.phaseP + i + dt k c v, o.phaseT + i - dt k c v) := by
  simp only
  have hw : ((waveInput k c).voices.get (prevVoice v)).wrap =
      ((tickPhase k (tickNoise c)).voices.get (prevVoice v)).wrap := by
    rw [waveInput_get, tickSync_get]; split <;> rfl
  rw [hw, waveInput_get, tickSync_get]
  have hs : flagSync (tickPhase k (tickNoise c)) v = flagSync c v := rfl
  rw [hs]
  by_cases hx : (flagSync c v && ((tickPhase k (tickNoise c)).voices.get (prevVoice v)).wrap) = true
  · simp only [hx, if_true, oscSync]
    have := Bool.and_eq_true_iff.1 hx
    rw [if_pos (Or.inr this)]
  · simp only [hx]
    have hy : ¬(flagSync c v = true ∧ ((tickPhase k (tickNoise c)).voices.get (prevVoice v)).wrap = true) :=
      fun h => hx (Bool.and_eq_true_iff.2 h)
    simp only [hy, or_false, Bool.false_eq_true, if_false]
    rw [tickPhase_get, tickNoise_get]
    have ht : flagTest (tickNoise c) v = flagTest c v := rfl
    rw [ht]
    cases flagTest c v
    · simp only [Bool.false_eq_true, if_false, Prod.mk.injEq]
      refine ⟨?_, rfl, rfl⟩
      apply BitVec.eq_of_toNat_eq
      have : (oscAdvance (inc k (tickNoise c) v) (dt k (tickNoise c) v) (noiseStep (c.voices.get v))).phase =
        BitVec.ofNat 24 ((c.voices.get v).phase.toNat + (inc k c v).toNat) := rfl
      rw [this, BitVec.toNat_ofNat, BitVec.toNat_add]
    · simp only [if_true]; rfl

/-- The noise registers after a tick (R221). -/
theorem tick_noise (k : Cfg) (c : Chip) (v : VoiceId) :
    ((tick k c).voices.get v).n1 = noiseShift (c.voices.get v).n1
      ∧ ((tick k c).voices.get v).n2 = (c.voices.get v).n2 + noiseShift (c.voices.get v).n1
      ∧ ((tick k c).voices.get v).nout =
        (noiseShift (c.voices.get v).n1 ^^^ ((c.voices.get v).n2 + noiseShift (c.voices.get v).n1)).extractLsb' 12 12 := by
  rw [tick_get]; simp only [envStep_n1, envStep_n2, envStep_nout]; rw [waveInput_eq]
  exact ⟨rfl, rfl, rfl⟩

/-- `centre` and `held` after a tick (R180, R182, R187). -/
theorem tick_centre (k : Cfg) (c : Chip) (v : VoiceId) :
    ((tick k c).voices.get v).centre = BitVec.ofInt 15 (centreValue (waveInput k c) v)
      ∧ ((tick k c).voices.get v).held = ((tick k c).voices.get v).centre := by
  rw [tick_get]; simp

/-- The digital output after a tick (R186), exact for every `centre`. -/
theorem tick_d (k : Cfg) (c : Chip) (v : VoiceId) :
    ((tick k c).voices.get v).d.toInt =
      ((tick k c).voices.get v).centre.toInt * ((tick k c).voices.get v).cnt.toNat := by
  have h : ((tick k c).voices.get v).d =
      BitVec.ofInt 23 (((tick k c).voices.get v).centre.toInt * ((tick k c).voices.get v).cnt.toNat) := by
    rw [tick_get]; simp
  rw [h, BitVec.toInt_ofInt]
  have h1 := BitVec.two_mul_toInt_lt (x := ((tick k c).voices.get v).centre)
  have h2 := BitVec.le_two_mul_toInt (x := ((tick k c).voices.get v).centre)
  have h3 := ((tick k c).voices.get v).cnt.isLt
  generalize ((tick k c).voices.get v).centre.toInt = x at *
  generalize ((tick k c).voices.get v).cnt.toNat = n at *
  have ha : x * n ≤ 16384 * 255 := by nlinarith
  have hb : -(16384 * 255) ≤ x * n := by nlinarith
  rw [Int.bmod_eq_of_le (by omega) (by omega)]

/-- The envelope after a tick (R211): one envelope step on the voice as the last tick left it. -/
theorem tick_env (k : Cfg) (c : Chip) (v : VoiceId) :
    let o := envStep (envInput k c v) (c.voices.get v)
    ((tick k c).voices.get v).est = o.est ∧ ((tick k c).voices.get v).cnt = o.cnt
      ∧ ((tick k c).voices.get v).hc = o.hc ∧ ((tick k c).voices.get v).sub = o.sub := by
  simp only
  rw [tick_get]
  simp only
  have h : ({ (waveInput k c).voices.get v with centre := BitVec.ofInt 15 (centreValue (waveInput k c) v) } : Voice) =
      withEnv { (waveInput k c).voices.get v with centre := BitVec.ofInt 15 (centreValue (waveInput k c) v) }
        (c.voices.get v) := by
    rw [waveInput_eq]; rfl
  rw [h, envStep_withEnv]
  exact ⟨rfl, rfl, rfl, rfl⟩

end Sys2Proof.Machine
end

