-- ==== Sys2Proof/Tests/Slice0.lean ====
section
/-! SUPPORT. The model's own tests: ill-formed terms, words written out from the encoding (R80 to R86 and
`95_test_vectors.md` part 2), one step of each instruction (`95_test_vectors.md` part 3, R50), and for each statement with
hypotheses a state and operands that meet them (`witness_<statement>`). -/

namespace Sys2Proof.Machine.Test

open Sys2Proof Sys2Proof.Machine

/-! ### Ill-formed terms are refused -/

theorem test_wf_wrV1FreqLo : WellFormed (.wrV1FreqLo 0x80#8 0#8) = false ∧ WellFormed (.wrV1FreqLo 0x7F#8 0#8) = true := by decide
theorem test_wf_wrV1FreqHi : WellFormed (.wrV1FreqHi 0x80#8 0#8) = false ∧ WellFormed (.wrV1FreqHi 0x7F#8 0#8) = true := by decide
theorem test_wf_wrV1PwLo : WellFormed (.wrV1PwLo 0x80#8 0#8) = false ∧ WellFormed (.wrV1PwLo 0x7F#8 0#8) = true := by decide
theorem test_wf_wrV1PwHi : WellFormed (.wrV1PwHi 0x80#8 0#8) = false ∧ WellFormed (.wrV1PwHi 0x7F#8 0#8) = true := by decide
theorem test_wf_wrV1Ctrl : WellFormed (.wrV1Ctrl 0x80#8 0#8) = false ∧ WellFormed (.wrV1Ctrl 0x7F#8 0#8) = true := by decide
theorem test_wf_wrV1Ad : WellFormed (.wrV1Ad 0x80#8 0#8) = false ∧ WellFormed (.wrV1Ad 0x7F#8 0#8) = true := by decide
theorem test_wf_wrV1Sr : WellFormed (.wrV1Sr 0x80#8 0#8) = false ∧ WellFormed (.wrV1Sr 0x7F#8 0#8) = true := by decide
theorem test_wf_wrV2FreqLo : WellFormed (.wrV2FreqLo 0x80#8 0#8) = false ∧ WellFormed (.wrV2FreqLo 0x7F#8 0#8) = true := by decide
theorem test_wf_wrV2FreqHi : WellFormed (.wrV2FreqHi 0x80#8 0#8) = false ∧ WellFormed (.wrV2FreqHi 0x7F#8 0#8) = true := by decide
theorem test_wf_wrV2PwLo : WellFormed (.wrV2PwLo 0x80#8 0#8) = false ∧ WellFormed (.wrV2PwLo 0x7F#8 0#8) = true := by decide
theorem test_wf_wrV2PwHi : WellFormed (.wrV2PwHi 0x80#8 0#8) = false ∧ WellFormed (.wrV2PwHi 0x7F#8 0#8) = true := by decide
theorem test_wf_wrV2Ctrl : WellFormed (.wrV2Ctrl 0x80#8 0#8) = false ∧ WellFormed (.wrV2Ctrl 0x7F#8 0#8) = true := by decide
theorem test_wf_wrV2Ad : WellFormed (.wrV2Ad 0x80#8 0#8) = false ∧ WellFormed (.wrV2Ad 0x7F#8 0#8) = true := by decide
theorem test_wf_wrV2Sr : WellFormed (.wrV2Sr 0x80#8 0#8) = false ∧ WellFormed (.wrV2Sr 0x7F#8 0#8) = true := by decide
theorem test_wf_wrV3FreqLo : WellFormed (.wrV3FreqLo 0x80#8 0#8) = false ∧ WellFormed (.wrV3FreqLo 0x7F#8 0#8) = true := by decide
theorem test_wf_wrV3FreqHi : WellFormed (.wrV3FreqHi 0x80#8 0#8) = false ∧ WellFormed (.wrV3FreqHi 0x7F#8 0#8) = true := by decide
theorem test_wf_wrV3PwLo : WellFormed (.wrV3PwLo 0x80#8 0#8) = false ∧ WellFormed (.wrV3PwLo 0x7F#8 0#8) = true := by decide
theorem test_wf_wrV3PwHi : WellFormed (.wrV3PwHi 0x80#8 0#8) = false ∧ WellFormed (.wrV3PwHi 0x7F#8 0#8) = true := by decide
theorem test_wf_wrV3Ctrl : WellFormed (.wrV3Ctrl 0x80#8 0#8) = false ∧ WellFormed (.wrV3Ctrl 0x7F#8 0#8) = true := by decide
theorem test_wf_wrV3Ad : WellFormed (.wrV3Ad 0x80#8 0#8) = false ∧ WellFormed (.wrV3Ad 0x7F#8 0#8) = true := by decide
theorem test_wf_wrV3Sr : WellFormed (.wrV3Sr 0x80#8 0#8) = false ∧ WellFormed (.wrV3Sr 0x7F#8 0#8) = true := by decide
theorem test_wf_wrFcLo : WellFormed (.wrFcLo 0x80#8 0#8) = false ∧ WellFormed (.wrFcLo 0x7F#8 0#8) = true := by decide
theorem test_wf_wrFcHi : WellFormed (.wrFcHi 0x80#8 0#8) = false ∧ WellFormed (.wrFcHi 0x7F#8 0#8) = true := by decide
theorem test_wf_wrResFilt : WellFormed (.wrResFilt 0x80#8 0#8) = false ∧ WellFormed (.wrResFilt 0x7F#8 0#8) = true := by decide
theorem test_wf_wrModeVol : WellFormed (.wrModeVol 0x80#8 0#8) = false ∧ WellFormed (.wrModeVol 0x7F#8 0#8) = true := by decide
theorem test_wf_wrRsv19 : WellFormed (.wrRsv19 0x80#8 0#8) = false ∧ WellFormed (.wrRsv19 0x7F#8 0#8) = true := by decide
theorem test_wf_wrRsv1A : WellFormed (.wrRsv1A 0x80#8 0#8) = false ∧ WellFormed (.wrRsv1A 0x7F#8 0#8) = true := by decide
theorem test_wf_wrOsc3 : WellFormed (.wrOsc3 0x80#8 0#8) = false ∧ WellFormed (.wrOsc3 0x7F#8 0#8) = true := by decide
theorem test_wf_wrEnv3 : WellFormed (.wrEnv3 0x80#8 0#8) = false ∧ WellFormed (.wrEnv3 0x7F#8 0#8) = true := by decide
theorem test_wf_wrControl : WellFormed (.wrControl 0x80#8 0#8) = false ∧ WellFormed (.wrControl 0x7F#8 0#8) = true := by decide
theorem test_wf_create : WellFormed (.create 0xFF#8 0#32) = true := by decide
theorem test_wf_destroy : WellFormed (.destroy 0x80#8 0#32) = false ∧ WellFormed (.destroy 0x7F#8 0#32) = true := by decide
theorem test_wf_advance : WellFormed (.advance 0x80#8 0#32) = false ∧ WellFormed (.advance 0x7F#8 0#32) = true := by decide
theorem test_wf_setGain : WellFormed (.setGain 0x80#8 0#32) = false ∧ WellFormed (.setGain 0x7F#8 0#32) = true := by decide
theorem test_wf_setDetune : WellFormed (.setDetune 0x80#8 0#32) = false ∧ WellFormed (.setDetune 0x7F#8 0#32) = true := by decide
theorem test_wf_setLeakage : WellFormed (.setLeakage 0x80#8 0#32) = false ∧ WellFormed (.setLeakage 0x7F#8 0#32) = true := by decide
theorem test_wf_setSnr : WellFormed (.setSnr 0x80#8 0#32) = false ∧ WellFormed (.setSnr 0x7F#8 0#32) = true := by decide
theorem test_wf_setDcbias : WellFormed (.setDcbias 0x80#8 0#32) = false ∧ WellFormed (.setDcbias 0x7F#8 0#32) = true := by decide
theorem test_wf_setPolemix : WellFormed (.setPolemix 0x80#8 0#32) = false ∧ WellFormed (.setPolemix 0x7F#8 0#32) = true := by decide
theorem test_wf_setClockrate : WellFormed (.setClockrate 0x80#8 0#32) = false ∧ WellFormed (.setClockrate 0x7F#8 0#32) = true := by decide
theorem test_wf_ctrlChange : WellFormed (.ctrlChange 100#7 0#14) = false ∧ WellFormed (.ctrlChange 99#7 0#14) = true := by
  decide

/-! ### Words written out bit by bit decode to their instruction

`W[63:60]` class, `W[59:56]` 0, `W[55:48]` handle, `W[47:40]` address, id or kind, `W[39:32]` 0, `W[31:0]` payload. -/

theorem test_decode_wrV1FreqLo :
    decoded (decode 0b0000_0000_00000000_00000000_00000000_000000000000000000000000_11010110#64) = some (.wrV1FreqLo 0#8 214#8) := by decide
theorem test_decode_wrV1FreqHi :
    decoded (decode 0b0000_0000_00000001_00000001_00000000_000000000000000000000000_00110100#64) = some (.wrV1FreqHi 1#8 52#8) := by decide
theorem test_decode_wrV1PwLo :
    decoded (decode 0b0000_0000_00000010_00000010_00000000_000000000000000000000000_00010010#64) = some (.wrV1PwLo 2#8 18#8) := by decide
theorem test_decode_wrV1PwHi :
    decoded (decode 0b0000_0000_01111111_00000011_00000000_000000000000000000000000_11110111#64) = some (.wrV1PwHi 127#8 247#8) := by decide
theorem test_decode_wrV1Ctrl :
    decoded (decode 0b0000_0000_11111111_00000100_00000000_000000000000000000000000_00100001#64) = some (.wrV1Ctrl 255#8 33#8) := by decide
theorem test_decode_wrV1Ad :
    decoded (decode 0b0000_0000_00000000_00000101_00000000_000000000000000000000000_10100011#64) = some (.wrV1Ad 0#8 163#8) := by decide
theorem test_decode_wrV1Sr :
    decoded (decode 0b0000_0000_00000001_00000110_00000000_000000000000000000000000_11110000#64) = some (.wrV1Sr 1#8 240#8) := by decide
theorem test_decode_wrV2FreqLo :
    decoded (decode 0b0000_0000_00000010_00000111_00000000_000000000000000000000000_11010110#64) = some (.wrV2FreqLo 2#8 214#8) := by decide
theorem test_decode_wrV2FreqHi :
    decoded (decode 0b0000_0000_01111111_00001000_00000000_000000000000000000000000_00110100#64) = some (.wrV2FreqHi 127#8 52#8) := by decide
theorem test_decode_wrV2PwLo :
    decoded (decode 0b0000_0000_11111111_00001001_00000000_000000000000000000000000_00010010#64) = some (.wrV2PwLo 255#8 18#8) := by decide
theorem test_decode_wrV2PwHi :
    decoded (decode 0b0000_0000_00000000_00001010_00000000_000000000000000000000000_11110111#64) = some (.wrV2PwHi 0#8 247#8) := by decide
theorem test_decode_wrV2Ctrl :
    decoded (decode 0b0000_0000_00000001_00001011_00000000_000000000000000000000000_00100001#64) = some (.wrV2Ctrl 1#8 33#8) := by decide
theorem test_decode_wrV2Ad :
    decoded (decode 0b0000_0000_00000010_00001100_00000000_000000000000000000000000_10100011#64) = some (.wrV2Ad 2#8 163#8) := by decide
theorem test_decode_wrV2Sr :
    decoded (decode 0b0000_0000_01111111_00001101_00000000_000000000000000000000000_11110000#64) = some (.wrV2Sr 127#8 240#8) := by decide
theorem test_decode_wrV3FreqLo :
    decoded (decode 0b0000_0000_11111111_00001110_00000000_000000000000000000000000_11010110#64) = some (.wrV3FreqLo 255#8 214#8) := by decide
theorem test_decode_wrV3FreqHi :
    decoded (decode 0b0000_0000_00000000_00001111_00000000_000000000000000000000000_00110100#64) = some (.wrV3FreqHi 0#8 52#8) := by decide
theorem test_decode_wrV3PwLo :
    decoded (decode 0b0000_0000_00000001_00010000_00000000_000000000000000000000000_00010010#64) = some (.wrV3PwLo 1#8 18#8) := by decide
theorem test_decode_wrV3PwHi :
    decoded (decode 0b0000_0000_00000010_00010001_00000000_000000000000000000000000_11110111#64) = some (.wrV3PwHi 2#8 247#8) := by decide
theorem test_decode_wrV3Ctrl :
    decoded (decode 0b0000_0000_01111111_00010010_00000000_000000000000000000000000_00100001#64) = some (.wrV3Ctrl 127#8 33#8) := by decide
theorem test_decode_wrV3Ad :
    decoded (decode 0b0000_0000_11111111_00010011_00000000_000000000000000000000000_10100011#64) = some (.wrV3Ad 255#8 163#8) := by decide
theorem test_decode_wrV3Sr :
    decoded (decode 0b0000_0000_00000000_00010100_00000000_000000000000000000000000_11110000#64) = some (.wrV3Sr 0#8 240#8) := by decide
theorem test_decode_wrFcLo :
    decoded (decode 0b0000_0000_00000001_00010101_00000000_000000000000000000000000_11010110#64) = some (.wrFcLo 1#8 214#8) := by decide
theorem test_decode_wrFcHi :
    decoded (decode 0b0000_0000_00000010_00010110_00000000_000000000000000000000000_00110100#64) = some (.wrFcHi 2#8 52#8) := by decide
theorem test_decode_wrResFilt :
    decoded (decode 0b0000_0000_01111111_00010111_00000000_000000000000000000000000_00010010#64) = some (.wrResFilt 127#8 18#8) := by decide
theorem test_decode_wrModeVol :
    decoded (decode 0b0000_0000_11111111_00011000_00000000_000000000000000000000000_11110111#64) = some (.wrModeVol 255#8 247#8) := by decide
theorem test_decode_wrRsv19 :
    decoded (decode 0b0000_0000_00000000_00011001_00000000_000000000000000000000000_00100001#64) = some (.wrRsv19 0#8 33#8) := by decide
theorem test_decode_wrRsv1A :
    decoded (decode 0b0000_0000_00000001_00011010_00000000_000000000000000000000000_10100011#64) = some (.wrRsv1A 1#8 163#8) := by decide
theorem test_decode_wrOsc3 :
    decoded (decode 0b0000_0000_00000010_00011011_00000000_000000000000000000000000_11110000#64) = some (.wrOsc3 2#8 240#8) := by decide
theorem test_decode_wrEnv3 :
    decoded (decode 0b0000_0000_01111111_00011100_00000000_000000000000000000000000_11010110#64) = some (.wrEnv3 127#8 214#8) := by decide
theorem test_decode_wrControl :
    decoded (decode 0b0000_0000_11111111_00011101_00000000_000000000000000000000000_00110100#64) = some (.wrControl 255#8 52#8) := by decide
theorem test_decode_create :
    decoded (decode 0b0001_0000_00000000_00000000_00000000_00000000000000000000000000000000#64) = some (.create 0#8 0x00000000#32) := by decide
theorem test_decode_destroy :
    decoded (decode 0b0001_0000_00000010_00000001_00000000_00000000000000000000000000000000#64) = some (.destroy 2#8 0x00000000#32) := by decide
theorem test_decode_advance :
    decoded (decode 0b0001_0000_00000000_00000010_00000000_00000000000000000000000000000000#64) = some (.advance 0#8 0x00000000#32) := by decide
theorem test_decode_setGain :
    decoded (decode 0b0001_0000_00000000_00000011_00000000_00111111100000000000000000000000#64) = some (.setGain 0#8 0x3F800000#32) := by decide
theorem test_decode_setDetune :
    decoded (decode 0b0001_0000_00000000_00000100_00000000_00111100001000111101011100001010#64) = some (.setDetune 0#8 0x3C23D70A#32) := by decide
theorem test_decode_setLeakage :
    decoded (decode 0b0001_0000_00000000_00000101_00000000_00111010100000110001001001101111#64) = some (.setLeakage 0#8 0x3A83126F#32) := by decide
theorem test_decode_setSnr :
    decoded (decode 0b0001_0000_00000000_00000110_00000000_00111111000000000000000000000000#64) = some (.setSnr 0#8 0x3F000000#32) := by decide
theorem test_decode_setDcbias :
    decoded (decode 0b0001_0000_00000000_00000111_00000000_11000000000000000000000000000000#64) = some (.setDcbias 0#8 0xC0000000#32) := by decide
theorem test_decode_setPolemix :
    decoded (decode 0b0001_0000_00000000_00001000_00000000_00111110100000000000000000000000#64) = some (.setPolemix 0#8 0x3E800000#32) := by decide
theorem test_decode_setClockrate :
    decoded (decode 0b0001_0000_00000001_00001001_00000000_01001001011100001000101000000000#64) = some (.setClockrate 1#8 0x49708A00#32) := by decide
theorem test_decode_noteOn :
    decoded (decode 0b0010_0000_00000000_00000000_00000000_00000000000000000_1100100_0_0111100#64) = some (.noteOn 60#7 100#7) := by decide
theorem test_decode_noteOff :
    decoded (decode 0b0010_0000_00000000_00000001_00000000_00000000000000000_0000000_0_0111100#64) = some (.noteOff 60#7 0#7) := by decide
theorem test_decode_ctrlChange :
    decoded (decode 0b0010_0000_00000000_00000010_00000000_000000000_1011101_00_11111111111111#64) = some (.ctrlChange 93#7 16383#14) := by decide
theorem test_decode_clk :
    decoded (decode 0b0011_000000000000000000000000000000000000000000000000000000000000#64) = some .clk := by decide

/-- The words of `95_test_vectors.md` section 2.2 that are no command (BadCmd) are refused. -/
theorem test_decode_refuses :
    [0x4000000000000000, 0xF000000000000000, 0x0100040000000001, 0x0000040100000001, 0x0000040000000100,
      0x00001E0000000000, 0x0000FF0000000000, 0x10000A0000000000, 0x10FFC80000000000, 0x1000020100000000,
      0x2000030000000000, 0x2000000000000080, 0x2000000000008000, 0x200100000000643C, 0x2000020000004000,
      0x3000010000000000, 0x3000000000000001].all (fun w => decodeTableWord 64 w == none) = true := by decide

/-! ### One step of each instruction -/

/-- The state a step answers; the start state if it stops, which the responses then show. -/
def next (o : Host.Outcome State Fault Refusal) : Option State :=
  match o with
  | .next t => some t
  | _ => none

/-- One step on a command word. -/
def after (s : State) (w : Nat) : Option State := next (step (s.withFetchWord 64 w))

/-- The responses of one step. -/
def answers (s : State) (w : Nat) : List Response := ((after s w).map State.rsp).getD []

/-- A field of chip `n` after one step. -/
def chipAfter {α : Type} (s : State) (w n : Nat) (f : Chip → α) : Option α :=
  match after s w with
  | some t => (t.pool.getD n none).map f
  | none => none

/-- Response and stored byte of a register write to a fresh chip 0. -/
def exchange (w : Nat) (a : Fin 32) : List Response × Option Byte :=
  (answers State.reset w, chipAfter State.reset w 0 fun c => c.regs[a])

/-- Engine reset with chip 0 replaced. -/
def withChip0 (c : Chip) : State := { State.reset with pool := State.reset.pool.set 0 (some c) }

/-- A fresh chip with one register byte. -/
def chipWith (a : Fin 32) (d : Byte) : Chip := { chipCreated with regs := chipCreated.regs.set a.val d a.isLt }

/-- Engine reset with every slot live. -/
def fullState : State := { State.reset with pool := List.replicate 4 (some chipCreated) }

/-- Engine reset with blocks of 16 ticks. -/
def smallBlocks : State := State.resetWith { Cfg.example with blockSize := 16 } 4 16

theorem test_step_wrV1FreqLo : exchange 0x000000000000005A 0x00 = ([.ok 0xD6#32], some 0x5A#8) := by decide
theorem test_step_wrV1FreqHi : exchange 0x000001000000005A 0x01 = ([.ok 0x1C#32], some 0x5A#8) := by decide
theorem test_step_wrV1PwLo : exchange 0x000002000000005A 0x02 = ([.ok 0x00#32], some 0x5A#8) := by decide
theorem test_step_wrV1PwHi : exchange 0x000003000000005A 0x03 = ([.ok 0x08#32], some 0x5A#8) := by decide
theorem test_step_wrV1Ctrl : exchange 0x000004000000005A 0x04 = ([.ok 0x00#32], some 0x5A#8) := by decide
theorem test_step_wrV1Ad : exchange 0x000005000000005A 0x05 = ([.ok 0x00#32], some 0x5A#8) := by decide
theorem test_step_wrV1Sr : exchange 0x000006000000005A 0x06 = ([.ok 0x00#32], some 0x5A#8) := by decide
theorem test_step_wrV2FreqLo : exchange 0x000007000000005A 0x07 = ([.ok 0xD6#32], some 0x5A#8) := by decide
theorem test_step_wrV2FreqHi : exchange 0x000008000000005A 0x08 = ([.ok 0x1C#32], some 0x5A#8) := by decide
theorem test_step_wrV2PwLo : exchange 0x000009000000005A 0x09 = ([.ok 0x00#32], some 0x5A#8) := by decide
theorem test_step_wrV2PwHi : exchange 0x00000A000000005A 0x0A = ([.ok 0x08#32], some 0x5A#8) := by decide
theorem test_step_wrV2Ctrl : exchange 0x00000B000000005A 0x0B = ([.ok 0x00#32], some 0x5A#8) := by decide
theorem test_step_wrV2Ad : exchange 0x00000C000000005A 0x0C = ([.ok 0x00#32], some 0x5A#8) := by decide
theorem test_step_wrV2Sr : exchange 0x00000D000000005A 0x0D = ([.ok 0x00#32], some 0x5A#8) := by decide
theorem test_step_wrV3FreqLo : exchange 0x00000E000000005A 0x0E = ([.ok 0xD6#32], some 0x5A#8) := by decide
theorem test_step_wrV3FreqHi : exchange 0x00000F000000005A 0x0F = ([.ok 0x1C#32], some 0x5A#8) := by decide
theorem test_step_wrV3PwLo : exchange 0x000010000000005A 0x10 = ([.ok 0x00#32], some 0x5A#8) := by decide
theorem test_step_wrV3PwHi : exchange 0x000011000000005A 0x11 = ([.ok 0x08#32], some 0x5A#8) := by decide
theorem test_step_wrV3Ctrl : exchange 0x000012000000005A 0x12 = ([.ok 0x00#32], some 0x5A#8) := by decide
theorem test_step_wrV3Ad : exchange 0x000013000000005A 0x13 = ([.ok 0x00#32], some 0x5A#8) := by decide
theorem test_step_wrV3Sr : exchange 0x000014000000005A 0x14 = ([.ok 0x00#32], some 0x5A#8) := by decide
theorem test_step_wrFcLo : exchange 0x000015000000005A 0x15 = ([.ok 0x00#32], some 0x5A#8) := by decide
theorem test_step_wrFcHi : exchange 0x000016000000005A 0x16 = ([.ok 0x00#32], some 0x5A#8) := by decide
theorem test_step_wrResFilt : exchange 0x000017000000005A 0x17 = ([.ok 0x00#32], some 0x5A#8) := by decide
theorem test_step_wrModeVol : exchange 0x000018000000005A 0x18 = ([.ok 0x00#32], some 0x5A#8) := by decide
theorem test_step_wrRsv19 : exchange 0x000019000000005A 0x19 = ([.ok 0x00#32], some 0x5A#8) := by decide
theorem test_step_wrRsv1A : exchange 0x00001A000000005A 0x1A = ([.ok 0x00#32], some 0x5A#8) := by decide
theorem test_step_wrOsc3 : exchange 0x00001B000000005A 0x1B = ([.ok 0x00#32], some 0x00#8) := by decide
theorem test_step_wrEnv3 : exchange 0x00001C000000005A 0x1C = ([.ok 0x00#32], some 0x00#8) := by decide
theorem test_step_wrControl : exchange 0x00001D0000000060 0x1D = ([.ok 0x00#32], some 0x60#8) := by decide

/-- `95_test_vectors.md` 3.1 line 10: CONTROL with bit 7 resets the chip. -/
theorem test_step_wrControl_reset :
    answers (withChip0 (chipWith 0x1D 0x60#8)) 0x00001D0000000090 = [.ok 0x60#32]
      ∧ chipAfter (withChip0 (chipWith 0x19 0x55#8)) 0x00001D0000000090 0 (fun c => (c.regs[0x1D], c.regs[0x19], c.regs[0x03]))
        = some (0x10#8, 0x00#8, 0x08#8) := by decide

theorem test_step_create : answers State.reset 0x1000000000000000 = [.ok 0x40000000#32] := by decide
theorem test_step_create_full : answers fullState 0x1000000000000000 = [.fail .poolFull 0xBF800000#32] := by decide
theorem test_step_destroy : answers State.reset 0x1001010000000000 = [.ok 0#32]
    ∧ chipAfter State.reset 0x1001010000000000 1 (fun _ => ()) = none := by decide
theorem test_step_destroy_dead : answers State.reset 0x1002010000000000 = [.fail .badHandle 0xBF800000#32] := by decide
theorem test_step_advance : chipAfter State.reset 0x1000020000000000 0
    (fun c => (c.voices.v1.phase, c.voices.v1.n1, c.regs[0x1B])) = some (0x028DE0#24, 0xFFFFF1#24, 0x80#8) := by
  decide +kernel
theorem test_step_advance_sample : answers State.reset 0x1000020000000000 = [.ok 0#32] := by decide +kernel
theorem test_step_setGain : answers State.reset 0x1000030041100000 = [.ok 0x40800000#32] := by decide
theorem test_step_setGain_nan : answers State.reset 0x100003007FC00000 = [.ok 0#32] := by decide
theorem test_step_setDetune : answers State.reset 0x100004003C23D70A = [.ok 0x3C23C000#32]
    ∧ chipAfter State.reset 0x100004003C23D70A 0 (fun c => c.params.detune) = some 655#16 := by decide
theorem test_step_setDetune_one : answers State.reset 0x100004003F800000 = [.ok 0x3F7FFF00#32] := by decide
theorem test_step_setLeakage : answers State.reset 0x100005003A83126F = [.ok 0x3A83126F#32]
    ∧ chipAfter State.reset 0x100005003A83126F 0 (fun c => c.params.leak) = some 0x3A83126F#32 := by decide
theorem test_step_setSnr : answers State.reset 0x1000060040000000 = [.ok 0x3F800000#32]
    ∧ chipAfter State.reset 0x1000060040000000 0 (fun c => c.params.snr) = some 0x3F800000#32 := by decide
theorem test_step_setDcbias : answers State.reset 0x10000700C0000000 = [.ok 0xBF800000#32] := by decide
theorem test_step_setPolemix : answers State.reset 0x100008003E800000 = [.ok 0x3E800000#32]
    ∧ chipAfter State.reset 0x100008003E800000 0 (fun c => c.params.polemix) = some 0x3E800000#32 := by decide
theorem test_step_setClockrate : answers State.reset 0x1000090049708A0C = [.ok 0x49708A00#32]
    ∧ chipAfter State.reset 0x1000090049708A0C 0 (fun c => c.params.clkHz) = some 985248#24 := by decide
theorem test_step_setClockrate_zero : answers State.reset 0x1000090000000000 = [.ok 0x3F800000#32] := by decide
theorem test_step_noteOn : (after State.reset 0x200000000000643C).map
    (fun t => (t.rsp, t.vm.isDown 60#7, t.vm.velOf 60#7, t.vm.isKnown 60#7)) = some ([.ok 0#32], true, 100#7, false) := by
  decide
theorem test_step_noteOff :
    (after { State.reset with vm := State.reset.vm.setDown 60#7 true } 0x200001000000003C).map
    (fun t => (t.rsp, t.vm.isDown 60#7)) = some ([.ok 0#32], false) := by decide
theorem test_step_ctrlChange : (after State.reset 0x20000200003C0004).map
    (fun t => (t.rsp, t.vm.keymode)) = some ([.ok 0#32], .poly4) := by decide
theorem test_step_ctrlChange_index : answers State.reset 0x2000020000640000 = [.fail .badCtrl 0xFFFFFFFF#32] := by decide

/-- `95_test_vectors.md` 3.7: key 69 down in Poly1 goes to voice 1, gate open, at register value `0x1CD6`. -/
theorem test_step_clk :
    (after { smallBlocks with vm := smallBlocks.vm.setDown 69#7 true } 0x3000000000000000).map
    (fun t => (t.rsp.length, (t.vm.voice .v1).vkey, (t.vm.voice .v2).vkey, (t.vm.voice .v1).actrl)) =
      some (16, some 69#7, none, 0x01#8) := by decide +kernel
theorem test_step_clk_pair : answers { State.reset with pool := [none, some chipCreated] } 0x3000000000000000 =
    [.fail .badHandle 0xBF800000#32] := by decide

/-- R71: a control word issued behind another, and handed over while a CLK waits, stands behind the CLK. -/
theorem test_port_arrival_order :
    let s : State := { ((State.reset.issue .control 1#64).issue .control 2#64).issue .render 9#64 with
      port := [0x3000000000000000#64] }
    (((s.accept .control).accept .render).accept .control).port = [0x3000000000000000#64, 1#64, 9#64, 2#64] := by decide

/-- R71: the render path's word is taken from the render path only, and a context with nothing issued hands over nothing. -/
theorem test_port_contexts :
    let s := (State.reset.issue .control 1#64).issue .render 9#64
    ((s.accept .render).agents = { control := [1#64], render := [], moves := [] } ∧ (s.accept .render).port = [9#64])
      ∧ (State.reset.accept .control).port = [] := by decide

/-! ### States and operands that meet the hypotheses of each statement -/

/-- Engine reset with the command word `w` waiting. -/
abbrev waiting (w : Nat) : State := State.reset.withFetchWord 64 w

/-- Engine reset with words in the port, a list of moves, and words the two contexts have issued. -/
abbrev inPort (port : List CmdWord) (moves : List Move) (control render : List CmdWord) : State :=
  { State.reset with port := port, agents := { control := control, render := render, moves := moves } }

/-- A fresh chip with two register bytes. -/
def chipWith2 (a : Fin 32) (d : Byte) (b : Fin 32) (e : Byte) : Chip :=
  { chipCreated with regs := (chipCreated.regs.set a.val d a.isLt).set b.val e b.isLt }

/-- A fresh chip with voice 1 in a given envelope state and counter, and two register bytes. -/
def chipEnv (est : EnvState) (cnt : Byte) (sub : BitVec 32) (a : Fin 32) (d : Byte) (b : Fin 32) (e : Byte) : Chip :=
  { chipWith2 a d b e with
    voices := chipCreated.voices.set .v1 { chipCreated.voices.v1 with est := est, cnt := cnt, sub := sub } }

/-- The engine of engine reset. -/
def engine0 : Engine := { vm := State.reset.vm, audio := chipCreated, modulation := chipCreated }

/-- `engine0` with a key mode. -/
def engineMode (m : KeyMode) : Engine := { engine0 with vm := { engine0.vm with keymode := m } }

/-- A VoiceManager with keys on the three voices. -/
def withKeys (m : VoiceManager) (a b c : Option Key) : VoiceManager :=
  ((m.setVoice .v1 { m.voice .v1 with vkey := a }).setVoice .v2 { m.voice .v2 with vkey := b }).setVoice .v3
    { m.voice .v3 with vkey := c }

/-- `engineMode` with keys on the three voices. -/
def engineKeys (m : KeyMode) (a b c : Option Key) : Engine :=
  { engine0 with vm := withKeys { engine0.vm with keymode := m } a b c }

theorem witness_EngineResetHoldsTheStatedValues : 2 ≤ 4 ∧ 2 ≤ 2 ∧ (2 ≤ 3 ∧ 3 < 4) := by decide

theorem witness_StepRunsTheDecodedCommand :
    CommandNext (waiting 0x200000000000643C) 0x200000000000643C#64 State.reset
      ∧ decode 0x200000000000643C#64 = .ok (.noteOn 60#7 100#7) := ⟨⟨rfl, rfl, rfl⟩, rfl⟩
/-- A command waits, and a context moves only after it. -/
theorem witness_StepRunsTheDecodedCommand_agents :
    CommandNext (inPort [0x3000000000000000#64] [.perform, .arrive .control] [0x2000010000000040#64] []) 0x3000000000000000#64
      (inPort [] [.arrive .control] [0x2000010000000040#64] []) := ⟨rfl, rfl, rfl⟩

theorem witness_IdleStepChangesNothing : State.reset.port = [] ∧ State.reset.agents.moves = [] := ⟨rfl, rfl⟩

theorem witness_MalformedWordsFailWithBadCmd :
    CommandNext (waiting 0x4000000000000000) 0x4000000000000000#64 State.reset
      ∧ (fieldClass 0x4000000000000000#64).toNat = 4
      ∧ (fieldClass 0xF000000000000000#64).toNat = 15
      ∧ fieldRsvA 0x0100040000000001#64 = 1#4 ∧ fieldRsvB 0x0000048000000001#64 = 128#8
      ∧ (fieldClass 0x0000040000000100#64 = 0#4 ∧ (0x0000040000000100#64).extractLsb' 8 24 = 1#24)
      ∧ (fieldClass 0x10000A0000000000#64 = 1#4 ∧ (fieldSel 0x10000A0000000000#64).toNat = 10)
      ∧ (fieldClass 0x2001000000000000#64 = 2#4 ∧ fieldHandle 0x2001000000000000#64 = 1#8)
      ∧ (fieldClass 0x2000030000000000#64 = 2#4 ∧ (fieldSel 0x2000030000000000#64).toNat = 3)
      ∧ ((fieldSel 0x2000010000000080#64).toNat = 1 ∧ (0x2000010000000080#64).extractLsb' 7 1 = 1#1)
      ∧ ((fieldSel 0x2000000000008000#64).toNat = 0 ∧ (0x2000000000008000#64).extractLsb' 15 17 = 1#17)
      ∧ (fieldSel 0x2000020000004000#64 = 2#8 ∧ (0x2000020000004000#64).extractLsb' 14 2 = 1#2)
      ∧ (fieldSel 0x2000020000800000#64 = 2#8 ∧ (0x2000020000800000#64).extractLsb' 23 9 = 1#9)
      ∧ (fieldClass 0x3000000000000001#64 = 3#4 ∧ (0x3000000000000001#64).extractLsb' 0 56 = 1#56) :=
  ⟨⟨rfl, rfl, rfl⟩, by decide⟩

theorem witness_ResponsesHaveTheFormOfTheirClass :
    CommandNext (waiting 0x0000000000000000) 0x0000000000000000#64 State.reset ∧ State.reset.cfg.wf
      ∧ fieldClass 0x0000000000000000#64 = 0#4 ∧ fieldClass 0x1000000000000000#64 = 1#4
      ∧ fieldClass 0x2000000000000000#64 = 2#4 ∧ fieldClass 0x3000000000000000#64 = 3#4
      ∧ 4 ≤ (fieldClass 0x4000000000000000#64).toNat ∧ 4 ≤ (fieldClass 0xF000000000000000#64).toNat :=
  ⟨⟨rfl, rfl, rfl⟩, by decide⟩

/-- A failing controller with a note behind it. -/
theorem witness_AFailureLeavesNoRecord :
    let s := inPort [0x2000020000640000#64, 0x200000000000643C#64] [] [] []
    let s' := inPort [0x200000000000643C#64] [] [] []
    CommandNext s 0x2000020000640000#64 s' ∧ step s = .next (s'.failed .badCtrl 0xFFFFFFFF#32)
      ∧ (s'.failed .badCtrl 0xFFFFFFFF#32).rsp.any Response.isFail = true
      ∧ CommandNext (s'.failed .badCtrl 0xFFFFFFFF#32) 0x200000000000643C#64
          ((inPort [] [] [] []).failed .badCtrl 0xFFFFFFFF#32) := ⟨⟨rfl, rfl, rfl⟩, rfl, rfl, rfl, rfl, rfl⟩

theorem witness_ConfigurationIsFixed :
    step (waiting 0x4000000000000000) = .next (State.reset.failed .badCmd 0xFFFFFFFF#32)
      ∧ (waiting 0x4000000000000000).agents.next = .perform := ⟨rfl, rfl⟩

theorem witness_OtherChipsAreUntouched_register :
    (∃ t, exec (.wrFcLo 1#8 7#8) State.reset = .next t) ∧ handleOperand (.wrFcLo 1#8 7#8) = some 1#8 := ⟨⟨_, rfl⟩, rfl⟩
theorem witness_OtherChipsAreUntouched_create :
    (∃ t, exec (.create 0#8 0#32) State.reset = .next t) ∧ ∃ t, exec (.create 0#8 0#32) fullState = .next t :=
  ⟨⟨_, rfl⟩, _, rfl⟩
theorem witness_OtherChipsAreUntouched_event :
    (∃ t, exec (.noteOn 60#7 1#7) State.reset = .next t) ∧ handleOperand (.noteOn 60#7 1#7) = none
      ∧ ∀ h p, (.noteOn 60#7 1#7 : Instr) ≠ .create h p := ⟨⟨_, rfl⟩, rfl, fun _ _ h => nomatch h⟩

theorem witness_DecoderAcceptsExactlyTheOpcodeMap :
    decode 0x00001D0000000080#64 = .ok (.wrControl 0#8 0x80#8)
      ∧ 0x00FF1D0000000080#64 &&& rowMask (.wrControl 0#8 0#8) = rowMatch (.wrControl 0#8 0#8)
      ∧ 0x00FF1D0000000080#64 &&& rowMask (.wrControl 5#8 9#8) = rowMatch (.wrControl 5#8 9#8) := ⟨rfl, rfl, rfl⟩

theorem witness_AnInvalidHandleFails :
    handleOperand (.setGain 0x80#8 0#32) = some 0x80#8 ∧ HandleInvalid State.reset 0x80#8
      ∧ HandleInvalid State.reset 0xFF#8 ∧ HandleInvalid State.reset 4#8 ∧ HandleInvalid State.reset 0x7F#8
      ∧ HandleInvalid State.reset 2#8 := by decide
theorem witness_AnInvalidHandleFails_word :
    (fieldClass 0x2001000000000000#64 = 2#4 ∧ fieldHandle 0x2001000000000000#64 ≠ 0#8)
      ∧ (fieldClass 0x30FF000000000000#64 = 3#4 ∧ fieldHandle 0x30FF000000000000#64 ≠ 0#8) := by decide

theorem witness_AnInvalidHandleFails_pair :
    handleOperand .clk = none ∧ (∀ h p, (.clk : Instr) ≠ .create h p)
      ∧ exec .clk { State.reset with pool := [some chipCreated, none] } =
        .next (({ State.reset with pool := [some chipCreated, none] } : State).failed .badHandle 0xBF800000#32) :=
  ⟨rfl, (fun _ _ h => nomatch h), rfl⟩

theorem witness_TheAddressCheckFollowsTheHandleCheck :
    CommandNext (inPort [encodeWr 0x1E#8 2#8 0#8] [] [] []) (encodeWr 0x1E#8 2#8 0#8) (inPort [] [] [] [])
      ∧ 0x1D < (0x1E#8).toNat ∧ HandleInvalid (inPort [encodeWr 0x1E#8 2#8 0#8] [] [] []) 2#8
      ∧ HandleOf (inPort [encodeWr 0x1E#8 1#8 0#8] [] [] []) 1#8 1 chipCreated
      ∧ (0x1D#8).toNat ≤ 0x1D ∧ 0x1D < (0xFF#8).toNat := ⟨⟨rfl, rfl, rfl⟩, by decide⟩

theorem witness_ABrokenPairFailsEventsAndClock_broken :
    PairBroken { State.reset with pool := [none, some chipCreated] } ∧ PairBroken { State.reset with pool := [some chipCreated] }
      ∧ (99#7).toNat ≤ 99 := ⟨.inl (fun _ h => nomatch h), .inr (fun _ h => nomatch h), by decide⟩
theorem witness_ABrokenPairFailsEventsAndClock_live :
    PairOf State.reset chipCreated chipCreated ∧ handleOperand (.ctrlChange 99#7 1#14) = none
      ∧ (∀ h p, (.ctrlChange 99#7 1#14 : Instr) ≠ .create h p)
      ∧ (∀ idx val, (.ctrlChange 99#7 1#14 : Instr) = .ctrlChange idx val → idx.toNat ≤ 99)
      ∧ ∃ t, exec (.ctrlChange 99#7 1#14) State.reset = .next t :=
  ⟨⟨rfl, rfl⟩, rfl, (fun _ _ h => nomatch h), (fun _ _ h => by cases h; decide), _, rfl⟩

theorem witness_ReservedAndUnknownControllers :
    PairOf State.reset chipCreated chipCreated ∧ (96 ≤ (96#7).toNat ∧ (96#7).toNat ≤ 99)
      ∧ (96 ≤ (99#7).toNat ∧ (99#7).toNat ≤ 99) ∧ 99 < (100#7).toNat ∧ 99 < (127#7).toNat :=
  ⟨⟨rfl, rfl⟩, by decide⟩

theorem witness_FrequencyAndPulseWidthWritesExchangeOneByte : HandleOf State.reset 0#8 0 chipCreated := by decide
theorem witness_VoiceControlAndEnvelopeWritesExchangeOneByte : HandleOf State.reset 1#8 1 chipCreated := by decide
theorem witness_FilterReservedAndTapWrites : HandleOf fullState 3#8 3 chipCreated := by decide

theorem witness_ControlWritesStoreOrReset :
    HandleOf State.reset 0#8 0 chipCreated ∧ (0x7F#8).msb = false ∧ (0x80#8).msb = true ∧ (0xFF#8).msb = true := by decide

theorem witness_DecodedFieldsFollowTheRegisters_voice :
    (VoiceId.v1 = .v1 ∧ (0 : Fin 15) = 0) ∧ (VoiceId.v2 = .v2 ∧ (7 : Fin 15) = 7) ∧ (VoiceId.v3 = .v3 ∧ (14 : Fin 15) = 14) := by
  decide
theorem witness_DecodedFieldsFollowTheRegisters_rate :
    (1 ≤ 1020 ∧ 255000 ≤ 250 * 1020) ∧ (1 ≤ 1 ∧ 2 * 1 < 255000) ∧ (2 * 127499 < 255000)
      ∧ Cfg.example.sampleRate = 44100 := by decide

theorem witness_CreateTakesTheLeastDeadSlot_free :
    State.reset.pool[2]? = some none ∧ ∀ j, j < 2 → ∃ c, State.reset.pool[j]? = some (some c) :=
  ⟨rfl, fun j hj => match j, hj with | 0, _ => ⟨_, rfl⟩ | 1, _ => ⟨_, rfl⟩⟩
theorem witness_CreateTakesTheLeastDeadSlot_full :
    ∀ j, j < fullState.pool.length → ∃ c, fullState.pool[j]? = some (some c) :=
  fun j hj => match j, hj with | 0, _ => ⟨_, rfl⟩ | 1, _ => ⟨_, rfl⟩ | 2, _ => ⟨_, rfl⟩ | 3, _ => ⟨_, rfl⟩

theorem witness_DestroyFreesTheSlotForReuse :
    HandleOf State.reset 1#8 1 chipCreated ∧ ∀ j, j < 1 → ∃ b, State.reset.pool[j]? = some (some b) :=
  ⟨by decide, fun j hj => match j, hj with | 0, _ => ⟨_, rfl⟩⟩

theorem witness_AdvanceRunsOneTick : HandleOf State.reset 0#8 0 chipCreated := by decide
theorem witness_FloatSettersStoreTheClampedParameter : HandleOf State.reset 1#8 1 chipCreated := by decide
theorem witness_DetuneAndClockRateAreStoredAsIntegers : HandleOf State.reset 0#8 0 chipCreated := by decide

theorem witness_ParameterConditioningClamps :
    isFinite fPos0 = true ∧ isFinite f4 = true ∧ fle fPos0 f4 = true ∧ unpack 0x7FC00000#32 = .nan
      ∧ unpack 0xFF800000#32 = .inf true ∧ unpack 0x7F800000#32 = .inf false := by decide
theorem witness_ParameterConditioningClamps_values :
    (isFinite 0x80000000#32 = true ∧ f32Value 0x80000000#32 ≤ f32Value fPos0)
      ∧ (isFinite f4 = true ∧ f32Value fPos0 < f32Value f4 ∧ f32Value f4 ≤ f32Value f4)
      ∧ (isFinite 0x40800001#32 = true ∧ f32Value fPos0 < f32Value 0x40800001#32 ∧ f32Value f4 < f32Value 0x40800001#32) := by
  have h0 : f32Value 0x80000000#32 = 0 := by
    rw [f32Value, show unpack 0x80000000#32 = .fin true 0 (-149) from by decide]; norm_num
  have h1 : f32Value fPos0 = 0 := by rw [f32Value, show unpack fPos0 = .fin false 0 (-149) from by decide]; norm_num
  have h2 : f32Value f4 = 4 := by rw [f32Value, show unpack f4 = .fin false 8388608 (-21) from by decide]; norm_num
  have h3 : f32Value 0x40800001#32 = 8388609 / 2097152 := by
    rw [f32Value, show unpack 0x40800001#32 = .fin false 8388609 (-21) from by decide]; norm_num
  rw [h0, h1, h2, h3]; refine ⟨⟨by decide, ?_⟩, ⟨by decide, ?_, ?_⟩, by decide, ?_, ?_⟩ <;> norm_num

theorem witness_PhasesAdvanceUnlessTestedOrSynced_held : flagTest (chipWith 0x04 0x08#8) .v1 = true := by decide
theorem witness_PhasesAdvanceUnlessTestedOrSynced_free :
    flagTest chipCreated .v1 = false ∧ ¬(flagSync chipCreated .v1 = true ∧
      ((tick Cfg.example chipCreated).voices.get (prevVoice .v1)).wrap = true) := by decide
theorem witness_PhasesAdvanceUnlessTestedOrSynced_synced :
    let c : Chip := { chipWith 0x04 0x02#8 with
      voices := chipCreated.voices.set .v3 { chipCreated.voices.v3 with phase := 0xFFFFFF#24 } }
    flagTest c .v1 = false ∧ flagSync c .v1 = true
      ∧ ((tick Cfg.example c).voices.get (prevVoice .v1)).wrap = true := by decide +kernel

theorem witness_PhaseAfterManyTicks :
    flagTest chipCreated .v2 = false ∧ flagSync chipCreated .v2 = false
      ∧ (inc { Cfg.example with sampleRate := 7382 } chipCreated .v2).toNat = 1000000
      ∧ 2 ^ 24 ∣ 2 ^ 18 * 1000000 := by decide

theorem witness_AndMixingCombinesTheSelectedWaveforms :
    (flagMulti chipCreated = false ∧ flagNoise chipCreated .v1 = false ∧ flagPulse chipCreated .v1 = false
        ∧ flagRamp chipCreated .v1 = false ∧ flagTri chipCreated .v1 = false)
      ∧ flagMulti (chipWith 0x04 0x10#8) = false ∧ flagTri (chipWith 0x04 0x10#8) .v1 = true := by decide
theorem witness_MultiMixingSumsTheSelectedWaveforms :
    (flagMulti (chipWith 0x1D 0x20#8) = true ∧ flagRing (chipWith 0x1D 0x20#8) .v1 = false)
      ∧ flagMulti (chipWith2 0x1D 0x20#8 0x04 0x44#8) = true ∧ flagRing (chipWith2 0x1D 0x20#8 0x04 0x44#8) .v1 = true := by
  decide

/-- Attack code 0 at 44100 Hz has hold 1, code 2 has hold 3; a counter at 254 reaches 255. -/
theorem witness_AttackStepsAfterItsHold_step :
    let c := chipEnv .attack 254#8 0#32 0x04 0x01#8 0x05 0x00#8
    flagGate c .v1 = true ∧ (c.voices.get .v1).est = .attack
      ∧ (ratePair Cfg.example (atk c .v1)).hold ≤ (0#16 + 1#16).toNat := by decide
theorem witness_AttackStepsAfterItsHold_wait :
    let c := chipEnv .release 0#8 0#32 0x04 0x01#8 0x05 0x20#8
    flagGate c .v1 = true ∧ (c.voices.get .v1).est = .release
      ∧ (0#16 + 1#16).toNat < (ratePair Cfg.example (atk c .v1)).hold := by decide
theorem witness_DecayAndSustainFollowTheSustainLevel_decay :
    Cfg.example.decay = .table
      ∧ (let c := chipEnv .decay 17#8 0#32 0x04 0x01#8 0x06 0x10#8
         flagGate c .v1 = true ∧ (c.voices.get .v1).est = .decay ∧ (c.voices.get .v1).cnt.toNat ≤ 17 * (sus c .v1).toNat)
      ∧ (let c := chipEnv .decay 18#8 6#32 0x04 0x01#8 0x06 0x10#8
         17 * (sus c .v1).toNat < (c.voices.get .v1).cnt.toNat
           ∧ ((c.voices.get .v1).sub + 1#32).toNat < (ratePair Cfg.example (dcy c .v1)).hold * 8)
      ∧ (let c := chipEnv .decay 18#8 7#32 0x04 0x01#8 0x06 0x10#8
         17 * (sus c .v1).toNat < (c.voices.get .v1).cnt.toNat
           ∧ (ratePair Cfg.example (dcy c .v1)).hold * 8 ≤ ((c.voices.get .v1).sub + 1#32).toNat) := by decide
theorem witness_DecayAndSustainFollowTheSustainLevel_sustain :
    (let c := chipEnv .sustain 17#8 0#32 0x04 0x01#8 0x06 0x10#8
     flagGate c .v1 = true ∧ (c.voices.get .v1).est = .sustain ∧ (c.voices.get .v1).cnt.toNat ≤ 17 * (sus c .v1).toNat)
      ∧ (let c := chipEnv .sustain 18#8 0#32 0x04 0x01#8 0x06 0x10#8
         flagGate c .v1 = true ∧ (c.voices.get .v1).est = .sustain
           ∧ 17 * (sus c .v1).toNat < (c.voices.get .v1).cnt.toNat) := by decide
theorem witness_ReleaseRunsDownToZero :
    Cfg.example.decay = .table
      ∧ (let c := chipEnv .release 0#8 0#32 0x04 0x00#8 0x06 0x00#8
         flagGate c .v1 = false ∧ (c.voices.get .v1).cnt.toNat = 0)
      ∧ (let c := chipEnv .sustain 255#8 9#32 0x04 0x00#8 0x06 0x02#8
         flagGate c .v1 = false ∧ 0 < (c.voices.get .v1).cnt.toNat
           ∧ (0#32 + 1#32).toNat < (ratePair Cfg.example (rel c .v1)).hold * 1)
      ∧ (let c := chipEnv .release 1#8 29#32 0x04 0x00#8 0x06 0x00#8
         flagGate c .v1 = false ∧ 0 < (c.voices.get .v1).cnt.toNat
           ∧ (ratePair Cfg.example (rel c .v1)).hold * 30 ≤ ((c.voices.get .v1).sub + 1#32).toNat) := by decide
theorem witness_AttackTakesExactlyItsRateTime :
    1 ≤ Cfg.example.sampleRate ∧ Cfg.example.sampleRate ≤ 2 ^ 20 ∧ flagGate (chipWith 0x04 0x01#8) .v1 = true
      ∧ ((chipWith 0x04 0x01#8).voices.get .v1).est = .release ∧ ((chipWith 0x04 0x01#8).voices.get .v1).cnt = 0#8 := by
  decide

theorem witness_AnalogueStageFollowsTheSelectedTopology :
    flagLadder chipCreated = false ∧ flagLadder (chipWith 0x1D 0x40#8) = true := by decide

theorem witness_ReservedBitsDoNotReachATick :
    let c := chipWith2 0x19 0xFF#8 0x15 0xF8#8
    c.voices = chipCreated.voices ∧ c.params = chipCreated.params ∧ c.filter = chipCreated.filter
      ∧ (∀ a : Fin 32, c.regs[a] &&& ~~~(unreadBits a.val) = chipCreated.regs[a] &&& ~~~(unreadBits a.val))
      ∧ c.regs ≠ chipCreated.regs := by decide

theorem witness_FloatOperationsRoundToNearestEven :
    isFinite f15 = true ∧ isFinite f127 = true ∧ isFinite (fadd f15 f127) = true ∧ isFinite (fsub f15 f127) = true
      ∧ isFinite (fmul f15 f127) = true ∧ isFinite (fdiv f15 f127) = true ∧ f32Value f127 ≠ 0 := by
  refine ⟨by decide, by decide, by decide, by decide, by decide, by decide, ?_⟩
  rw [f32Value, show unpack f127 = .fin false 16646144 (-17) from by decide]; norm_num

/-- The bounds of `i2f`, and a tie for `f2i` (127.5 goes to 128, 2.5 to 2). -/
theorem witness_FloatOperationsRoundToNearestEven_integers :
    |(2 ^ 24 : ℤ)| ≤ 2 ^ 24 ∧ |(-2 ^ 24 : ℤ)| ≤ 2 ^ 24 ∧ i2f (2 ^ 24) = 0x4B800000#32 ∧ i2f (-2 ^ 24) = 0xCB800000#32
      ∧ isFinite 0x42FF0000#32 = true ∧ f2i 0x42FF0000#32 = 128 ∧ isFinite 0x40200000#32 = true ∧ f2i 0x40200000#32 = 2 := by
  decide

theorem witness_NoteEventsEditTheKeyMapOnly :
    PairOf State.reset chipCreated chipCreated ∧ State.reset.vm.isDown 60#7 = false
      ∧ ({ State.reset with vm := State.reset.vm.setDown 127#7 true } : State).vm.isDown 127#7 = true := by decide

theorem witness_AudioControllersKeepTheOwnedRegisters : PairOf State.reset chipCreated chipCreated := by decide
theorem witness_ModulationControllersWriteTheRegister :
    PairOf State.reset chipCreated chipCreated ∧ (0x1A : Fin 32).val ≤ 0x1A ∧ (0x00 : Fin 32).val ≤ 0x1A := by decide
theorem witness_KeyModeChangeFreesEveryVoice :
    PairOf State.reset chipCreated chipCreated ∧ (KeyMode.poly1.code.toNat = min (1#14).toNat 4 ∧ KeyMode.poly1 = State.reset.vm.keymode)
      ∧ (KeyMode.poly4.code.toNat = min (16383#14).toNat 4 ∧ KeyMode.poly4 ≠ State.reset.vm.keymode)
      ∧ (KeyMode.mono.code.toNat = min (0#14).toNat 4 ∧ KeyMode.mono ≠ State.reset.vm.keymode) := by decide
theorem witness_ManagerControllersWriteOneField :
    PairOf State.reset chipCreated chipCreated ∧ (0#14 : BitVec 14) = 0#14 ∧ (16383#14 : BitVec 14) = 16383#14 := by decide

theorem witness_GlideMultipliersMeetTheirContract : isFinite f1 = true ∧ 0 < f32Value f1 ∧ 1 ≤ 1 := by
  refine ⟨by decide, ?_, by decide⟩
  rw [f32Value, show unpack f1 = .fin false 8388608 (-23) from by decide]; norm_num

theorem witness_AGlideLandsOnItsTarget :
    0 < ({ policyVoiceReset with gleft := 1#32 } : PolicyVoice).gleft.toNat ∧ 1 ≤ 1 := by decide

/-- Up by 1.5 from 2.0: on the way to 4.0, landing on the last tick, and past 2.5. -/
theorem witness_AGlideLandsOnItsTarget_step :
    let p : PolicyVoice := { policyVoiceReset with fcur := 0x40000000#32, ftgt := 0x40800000#32, gmul := 0x3FC00000#32,
                                                   gleft := 2#32 }
    policyVoiceReset.gleft = 0#32 ∧ p.gleft ≠ 0#32 ∧ (glideVoice p).fcur = 0x40400000#32
      ∧ (glideVoice { p with gleft := 1#32 }).fcur = 0x40800000#32
      ∧ (glideVoice { p with ftgt := 0x40200000#32 }).fcur = 0x40200000#32 := by decide

theorem witness_PressAndReleaseFollowTheKeyModePolicy_mono : (engineMode .mono).vm.keymode = .mono := by decide
theorem witness_PressAndReleaseFollowTheKeyModePolicy_free :
    let e := engineKeys .poly2 (some 60#7) none none
    e.vm.keymode = .poly2 ∧ (e.vm.voice .v2).vkey = none
      ∧ ∀ u, voiceIndex u < voiceIndex .v2 → (e.vm.voice u).vkey ≠ none := by
  refine ⟨by decide, by decide, fun u => ?_⟩
  cases u <;> decide
theorem witness_PressAndReleaseFollowTheKeyModePolicy_median :
    let e := engineKeys .poly1 (some 62#7) (some 0#7) (some 127#7)
    e.vm.keymode = .poly1 ∧ (e.vm.voice .v2).vkey = some 0#7 ∧ (e.vm.voice .v1).vkey = some 62#7
      ∧ (e.vm.voice .v3).vkey = some 127#7 ∧ (0#7).toNat < (62#7).toNat ∧ (62#7).toNat < (127#7).toNat := by decide
theorem witness_PressAndReleaseFollowTheKeyModePolicy_zone :
    ((engineMode .poly3).vm.keymode = .poly3 ∧ (59#7).toNat < (engineMode .poly3).vm.split.toNat)
      ∧ ((engineMode .poly4).vm.keymode = .poly4 ∧ (engineMode .poly4).vm.split.toNat ≤ (60#7).toNat) := by decide
theorem witness_PressAndReleaseFollowTheKeyModePolicy_split :
    (let e := engineKeys .poly3 none none none
     e.vm.keymode = .poly3 ∧ e.vm.split.toNat ≤ (60#7).toNat ∧ (e.vm.voice .v1).vkey = none)
      ∧ (let e := engineKeys .poly4 (some 48#7) none none
         e.vm.keymode = .poly4 ∧ (59#7).toNat < e.vm.split.toNat ∧ (e.vm.voice .v1).vkey ≠ none
           ∧ (e.vm.voice .v3).vkey = none)
      ∧ (let e := engineKeys .poly4 (some 48#7) none (some 50#7)
         (e.vm.voice .v1).vkey = some 48#7 ∧ (e.vm.voice .v3).vkey = some 50#7) := by decide

theorem witness_ScanTracksAndAssignsTheKeys :
    let e : Engine := { engine0 with vm := ((engine0.vm.setDown 0#7 true).setDown 60#7 true).setDown 127#7 true }
    e.vm.keymode = .poly1 ∧ (∀ k, e.vm.isKnown k = false) ∧ (∀ v, (e.vm.voice v).vkey = none)
      ∧ 3 ≤ (allKeys.filter e.vm.isDown).length := by
  refine ⟨by decide, by decide, fun v => ?_, by decide⟩
  cases v <;> decide

/-- An engine in Poly3 with the known keys 0 and 59 below the split. -/
def arpEngine (cnt : BitVec 32) (retrig : Bool) (key : Option Key) : Engine :=
  { engine0 with vm := withKeys { (engine0.vm.setKnown 0#7 true).setKnown 59#7 true with
      keymode := .poly3, arpCnt := cnt, arpRetrig := retrig } none key none }

theorem witness_ArpeggiatorUpdateWalksItsTable_off :
    (engineMode .mono).vm.keymode = .mono ∧ (engineMode .poly2).vm.keymode = .poly2 := by decide
theorem witness_ArpeggiatorUpdateWalksItsTable_rest :
    let e := { engineMode .poly4 with vm := { (engineMode .poly4).vm with arpKey := some 60#7 } }
    e.vm.keymode = .poly4 ∧ e.vm.arpKey ≠ none
      ∧ (allKeys.filter fun k => e.vm.isKnown k && decide (e.vm.split.toNat ≤ k.toNat)).take e.vm.arp.length = [] := by decide
theorem witness_ArpeggiatorUpdateWalksItsTable_wait :
    let e := arpEngine 1#32 true none
    e.vm.keymode = .poly3 ∧ 0 < e.vm.arpCnt.toInt
      ∧ (allKeys.filter fun k => e.vm.isKnown k && decide (k.toNat < e.vm.split.toNat)).take e.vm.arp.length = [0#7, 59#7] := by
  decide
theorem witness_ArpeggiatorUpdateWalksItsTable_step :
    (let e := arpEngine 0#32 true (some 3#7)
     e.vm.arpCnt.toInt ≤ 0 ∧ e.vm.arpRetrig = true ∧ (e.vm.voice .v2).vkey ≠ none)
      ∧ (let e := arpEngine 0x80000000#32 false (some 3#7)
         e.vm.arpCnt.toInt ≤ 0 ∧ e.vm.arpRetrig = false)
      ∧ (let e := arpEngine 0xFFFFFFFF#32 true none
         e.vm.arpCnt.toInt ≤ 0 ∧ (e.vm.voice .v2).vkey = none) := by decide

/-- Both values of `arp_scan`, on a due step whose voice is open. -/
theorem witness_ArpeggiatorUpdateWalksItsTable_scan :
    let e := arpEngine 0#32 true (some 3#7)
    let o : Engine := { e with vm := { e.vm.setVoice .v2 { e.vm.voice .v2 with actrl := 0x41#8 } with arpScan := true } }
    e.vm.arpScan = false ∧ o.vm.arpScan = true ∧ (o.vm.voice .v2).vkey ≠ none
      ∧ (waveScan o).audio.regs[0x0B] = 0x11#8 ∧ (arpUpdate Cfg.example o).audio.regs[0x0B] = 0x10#8
      ∧ (arpUpdate Cfg.example o).vm.arpPending = true := by decide +kernel

theorem witness_ClockFollowsItsSchedule_owed :
    let e : Engine := { engine0 with vm := { engine0.vm with arpPending := true, arpKey := some 60#7 } }
    engine0.vm.arpPending = false ∧ e.vm.arpPending = true ∧ e.vm.arpKey = some 60#7 := by decide

theorem witness_ClockProducesOneBlock : State.reset.cfg.wf ∧ PairOf State.reset chipCreated chipCreated := by decide
theorem witness_ClockFollowsItsSchedule :
    smallBlocks.cfg.wf ∧ PairOf smallBlocks chipCreated chipCreated ∧ 0 < smallBlocks.cfg.blockSize / 16 ∧ 15 < 16 := by decide

/-- A well-formed state other than the reset state, with a command waiting that a step performs. -/
theorem witness_EveryStepKeepsTheMachineWellFormed :
    StateWf (waiting 0x200000000000643C) ∧ ∃ t, step (waiting 0x200000000000643C) = .next t := by
  refine ⟨⟨by decide, ?_, by decide, fun _ => ⟨fun v k h => ?_, fun v w k h => ?_⟩⟩, _, rfl⟩
  · intro c hc
    have : c = chipCreated := by
      have hc : some c ∈ [some chipCreated, some chipCreated, none, none] := hc
      simpa using hc
    subst this; decide
  · cases v <;> exact nomatch h
  · cases v <;> exact nomatch h

/-- A move of each context, with a word behind the next and with nothing issued. -/
theorem witness_OnlyTheInterleavingOfTheContextsMatters :
    (let s := inPort [] [.arrive .control, .perform] [0x200000000000643C#64, 0x2000010000000040#64] []
     s.agents.moves = .arrive .control :: [.perform]
       ∧ s.agents.control = 0x200000000000643C#64 :: [0x2000010000000040#64])
      ∧ (let s := inPort [] [.arrive .render] [] [0x3000000000000000#64]
         s.agents.moves = .arrive .render :: [] ∧ s.agents.render = 0x3000000000000000#64 :: [])
      ∧ (let s := inPort [] [.arrive .control] [] [0x3000000000000000#64]
         s.agents.moves = .arrive .control :: [] ∧ s.agents.control = []) := by decide

end Sys2Proof.Machine.Test
end

section
/-! PROOFS. Rounding to nearest even: `roundShift` among the integers, `roundPack` among the finite binary32 patterns,
and from them the four operations, `i2f` and `f2i`. -/

namespace Sys2Proof.Machine

open Sys2Proof

/-! ### The nearest integer, ties to even -/

/-- `n` is an integer nearest to `z`, and the even one when two are. -/
def NearestEven (n : ℤ) (z : ℚ) : Prop :=
  |(n : ℚ) - z| ≤ 1 / 2 ∧ (|(n : ℚ) - z| = 1 / 2 → n % 2 = 0)

theorem nearestEven_self (n : ℤ) : NearestEven n n := by
  constructor <;> norm_num

theorem NearestEven.neg {n : ℤ} {z : ℚ} (h : NearestEven n z) : NearestEven (-n) (-z) := by
  have hd : |((-n : ℤ) : ℚ) - -z| = |(n : ℚ) - z| := by rw [← abs_neg]; push_cast; ring_nf
  rw [NearestEven, hd, Int.neg_emod_two]
  exact h

/-- No integer is nearer, and another one as near leaves `n` even. -/
theorem NearestEven.le_dist {n : ℤ} {z : ℚ} (h : NearestEven n z) (j : ℤ) :
    |(n : ℚ) - z| ≤ |(j : ℚ) - z| ∧ (|(n : ℚ) - z| = |(j : ℚ) - z| → j ≠ n → n % 2 = 0) := by
  obtain ⟨hle, htie⟩ := h
  by_cases hj : j = n
  · subst hj; simp
  · have hone : (1 : ℚ) ≤ |(j : ℚ) - n| := by
      have : 1 ≤ |j - n| := Int.one_le_abs (by omega)
      exact_mod_cast this
    have htri : |(j : ℚ) - n| ≤ |(j : ℚ) - z| + |(n : ℚ) - z| := by
      rw [abs_sub_comm (n : ℚ) z]; exact abs_sub_le _ _ _
    exact ⟨by linarith, fun heq _ => htie (by linarith)⟩

theorem NearestEven.le_of_le {n j : ℤ} {z : ℚ} (h : NearestEven n z) (hz : z ≤ j) : n ≤ j := by
  have := (abs_le.1 h.1).2
  have : (n : ℚ) < (j + 1 : ℤ) := by push_cast; linarith
  exact Int.lt_add_one_iff.1 (by exact_mod_cast this)

theorem NearestEven.ge_of_ge {n j : ℤ} {z : ℚ} (h : NearestEven n z) (hz : j ≤ z) : j ≤ n := by
  have := (abs_le.1 h.1).1
  have : (j : ℚ) < (n + 1 : ℤ) := by push_cast; linarith
  exact Int.lt_add_one_iff.1 (by exact_mod_cast this)

theorem NearestEven.eq_of_int {n j : ℤ} (h : NearestEven n j) : n = j :=
  le_antisymm (h.le_of_le le_rfl) (h.ge_of_ge le_rfl)

/-- The integer below `z`, or the one after it, is nearest by the fractional part `r / d`. -/
theorem nearestEven_of_quotient (a r d : ℕ) (hr : r < d) :
    NearestEven ((if d < 2 * r ∨ (2 * r = d ∧ a % 2 = 1) then a + 1 else a : ℕ) : ℤ) ((a : ℚ) + r / d) := by
  have hd : (0 : ℚ) < d := by exact_mod_cast (by omega : 0 < d)
  split
  next hup =>
    have hge : (1 : ℚ) / 2 ≤ r / d := by
      rw [le_div_iff₀ hd]; have : (d : ℚ) ≤ 2 * r := by exact_mod_cast (by omega : d ≤ 2 * r)
      linarith
    have hlt : (r : ℚ) / d < 1 := by rw [div_lt_one hd]; exact_mod_cast hr
    have habs : |(((a + 1 : ℕ) : ℤ) : ℚ) - (a + r / d)| = 1 - r / d := by
      rw [abs_of_nonneg] <;> push_cast <;> linarith
    refine ⟨by rw [habs]; linarith, fun htie => ?_⟩
    rw [habs] at htie
    have hhalf : (2 * r : ℚ) = d := by
      have : (r : ℚ) / d = 1 / 2 := by linarith
      rw [div_eq_iff hd.ne'] at this; linarith
    have : 2 * r = d := by exact_mod_cast hhalf
    omega
  next hdown =>
    have hle : (r : ℚ) / d ≤ 1 / 2 := by
      rw [div_le_iff₀ hd]; have : (2 * r : ℚ) ≤ d := by exact_mod_cast (by omega : 2 * r ≤ d)
      linarith
    have habs : |((a : ℤ) : ℚ) - (a + r / d)| = r / d := by
      rw [abs_sub_comm, abs_of_nonneg] <;> push_cast
      · ring
      · have : (0 : ℚ) ≤ r / d := by positivity
        linarith
    refine ⟨by rw [habs]; exact hle, fun htie => ?_⟩
    rw [habs, div_eq_iff hd.ne'] at htie
    have hhalf : (2 * r : ℚ) = d := by linarith
    have : 2 * r = d := by exact_mod_cast hhalf
    omega

theorem nearestEven_roundShift (m : ℕ) (k : ℤ) : NearestEven (roundShift m k) ((m : ℚ) * 2 ^ (-k)) := by
  match k with
  | .ofNat (n + 1) =>
    have hd : (0 : ℚ) < ((2 ^ (n + 1) : ℕ) : ℚ) := by positivity
    have hm : (m : ℚ) * 2 ^ (-(Int.ofNat (n + 1))) =
        ((m / 2 ^ (n + 1) : ℕ) : ℚ) + ((m % 2 ^ (n + 1) : ℕ) : ℚ) / ((2 ^ (n + 1) : ℕ) : ℚ) := by
      have hdiv : (m : ℚ) = ((2 ^ (n + 1) : ℕ) : ℚ) * ((m / 2 ^ (n + 1) : ℕ) : ℚ) + ((m % 2 ^ (n + 1) : ℕ) : ℚ) := by
        exact_mod_cast (Nat.div_add_mod m (2 ^ (n + 1))).symm
      have hz : (2 : ℚ) ^ (-(Int.ofNat (n + 1))) = ((2 ^ (n + 1) : ℕ) : ℚ)⁻¹ := by
        rw [zpow_neg, Int.ofNat_eq_natCast, zpow_natCast]; push_cast; rfl
      rw [hz, eq_comm, ← div_eq_mul_inv, eq_div_iff hd.ne', add_mul, div_mul_cancel₀ _ hd.ne']
      linarith
    rw [hm]
    exact nearestEven_of_quotient _ _ _ (Nat.mod_lt _ (by positivity))
  | .ofNat 0 => simpa [roundShift] using nearestEven_self m
  | .negSucc n =>
    have hm : (m : ℚ) * 2 ^ (-(Int.negSucc n)) = ((m * 2 ^ (n + 1) : ℕ) : ℤ) := by
      rw [Int.neg_negSucc, zpow_natCast]; push_cast; rfl
    rw [hm]
    exact nearestEven_self _

/-- `f2i` (R308). -/
theorem nearestEven_f2i {x : F32} (hx : isFinite x = true) : NearestEven (f2i x) (f32Value x) := by
  obtain ⟨n, m, e, h, -⟩ := unpack_of_finite hx
  have hm := nearestEven_roundShift m (-e)
  rw [neg_neg] at hm
  rw [f2i, f32Value_of_unpack h, h]
  cases n with
  | false => exact hm
  | true => simpa using hm.neg

/-! ### Signed numbers -/

/-- The number of magnitude `x`, or its negation. -/
def signed (neg : Bool) (x : ℚ) : ℚ := if neg then -x else x

theorem signed_mul (neg : Bool) (x y : ℚ) : signed neg (x * y) = signed neg x * y := by
  cases neg <;> simp [signed]

theorem signed_not (neg : Bool) (x : ℚ) : signed (!neg) x = -signed neg x := by
  cases neg <;> simp [signed]

theorem signed_mul_signed (n1 n2 : Bool) (x y : ℚ) : signed n1 x * signed n2 y = signed (n1 ^^ n2) (x * y) := by
  cases n1 <;> cases n2 <;> simp [signed]

theorem signed_div_signed (n1 n2 : Bool) (x y : ℚ) : signed n1 x / signed n2 y = signed (n1 ^^ n2) (x / y) := by
  cases n1 <;> cases n2 <;> simp [signed, neg_div, div_neg]

theorem int_eq_signed (s : ℤ) : (s : ℚ) = signed (decide (s < 0)) s.natAbs := by
  rw [Nat.cast_natAbs, Int.cast_abs]
  by_cases hs : s < 0
  · rw [abs_of_neg (by exact_mod_cast hs)]; simp [signed, hs]
  · rw [abs_of_nonneg (by exact_mod_cast not_lt.1 hs)]; simp [signed, hs]

theorem abs_signed_sub_signed (neg : Bool) (x y : ℚ) : |signed neg x - signed neg y| = |x - y| := by
  cases neg with
  | false => rfl
  | true => rw [← abs_neg]; simp only [signed, if_true]; ring_nf

theorem f32Value_eq_signed_mul {x : F32} {n : Bool} {m : ℕ} {e : ℤ} (h : unpack x = .fin n m e) :
    f32Value x = signed n m * 2 ^ e :=
  f32Value_of_unpack h

/-- A distance in units of `2^t`. -/
theorem abs_signed_mul_zpow_sub (neg : Bool) (x y : ℚ) (t : ℤ) :
    |signed neg x * 2 ^ t - signed neg y * 2 ^ t| = |x - y| * 2 ^ t := by
  rw [← sub_mul, abs_mul, abs_signed_sub_signed, abs_of_pos (a := (2 : ℚ) ^ t) (by positivity)]

/-! ### The fields of a packed pattern -/

theorem withSign_toNat (neg : Bool) {mag : ℕ} (h : mag < 2 ^ 31) :
    (withSign neg mag).toNat = neg.toNat * 2 ^ 31 + mag := by
  rw [withSign, BitVec.toNat_append, ← Nat.shiftLeft_add_eq_or_of_lt (BitVec.isLt _), Nat.shiftLeft_eq,
    BitVec.toNat_ofBool, BitVec.toNat_ofNat, Nat.mod_eq_of_lt h]

theorem f32Exp_withSign (neg : Bool) {mag : ℕ} (h : mag < 2 ^ 31) : f32Exp (withSign neg mag) = mag / 2 ^ 23 := by
  rw [f32Exp, BitVec.extractLsb'_toNat, withSign_toNat neg h, Nat.shiftRight_eq_div_pow]
  omega

theorem f32Frac_withSign (neg : Bool) {mag : ℕ} (h : mag < 2 ^ 31) : f32Frac (withSign neg mag) = mag % 2 ^ 23 := by
  rw [f32Frac, BitVec.extractLsb'_toNat, withSign_toNat neg h, Nat.shiftRight_eq_div_pow]
  omega

theorem msb_withSign (neg : Bool) {mag : ℕ} (h : mag < 2 ^ 31) : (withSign neg mag).msb = neg := by
  rw [BitVec.msb_eq_decide, withSign_toNat neg h]
  cases neg
  · simpa using h
  · simp

theorem bit0_withSign (neg : Bool) {mag : ℕ} (h : mag < 2 ^ 31) (heven : mag % 2 = 0) : (withSign neg mag)[0] = false := by
  rw [BitVec.getElem_eq_testBit_toNat, withSign_toNat neg h, Nat.testBit_zero]
  simp; omega

theorem isFinite_withSign (neg : Bool) {mag : ℕ} (h : mag < 0x7F800000) : isFinite (withSign neg mag) = true := by
  rw [isFinite, f32Exp_withSign neg (by omega), decide_eq_true_eq]
  omega

theorem withSign_lt_of_finite {neg : Bool} {mag : ℕ} (h : mag ≤ 0x7F800000) (hf : isFinite (withSign neg mag) = true) :
    mag < 0x7F800000 := by
  have : f32Exp (withSign neg mag) ≠ 255 := by simpa [isFinite] using hf
  rw [f32Exp_withSign neg (by omega)] at this
  omega

theorem unpack_withSign (neg : Bool) {mag : ℕ} (h : mag < 0x7F800000) :
    unpack (withSign neg mag) =
      if mag < 2 ^ 23 then .fin neg mag (-149) else .fin neg (mag % 2 ^ 23 + 2 ^ 23) ((mag / 2 ^ 23 : ℕ) - 150) := by
  rw [unpack, f32Exp_withSign neg (by omega), f32Frac_withSign neg (by omega), msb_withSign neg (by omega),
    if_neg (by omega)]
  by_cases hs : mag < 2 ^ 23
  · rw [if_pos (by omega), if_pos hs, Nat.mod_eq_of_lt hs]
  · rw [if_neg (by omega), if_neg hs]

/-- The bits `(t + 149) * 2^23 + n` stand for `n * 2^t`, also when `n` is `2^24` and carries into the exponent field. -/
theorem f32Value_withSign (neg : Bool) {t n : ℕ} (hn : n ≤ 2 ^ 24) (ht : t = 0 ∨ 2 ^ 23 ≤ n)
    (h : t * 2 ^ 23 + n < 0x7F800000) :
    f32Value (withSign neg (t * 2 ^ 23 + n)) = signed neg n * 2 ^ ((t : ℤ) - 149) := by
  have hu := unpack_withSign neg h
  by_cases hs : n < 2 ^ 23
  · obtain rfl : t = 0 := by omega
    rw [if_pos (by omega)] at hu
    rw [f32Value_eq_signed_mul hu]
    simp
  · rw [if_neg (by omega)] at hu
    rw [f32Value_eq_signed_mul hu]
    by_cases hc : n = 2 ^ 24
    · rw [show (t * 2 ^ 23 + n) % 2 ^ 23 + 2 ^ 23 = 2 ^ 23 by omega,
        show (((t * 2 ^ 23 + n) / 2 ^ 23 : ℕ) : ℤ) - 150 = 1 + ((t : ℤ) - 149) by omega, zpow_add₀ (by norm_num),
        ← mul_assoc, ← signed_mul, hc]
      norm_num
    · rw [show (t * 2 ^ 23 + n) % 2 ^ 23 + 2 ^ 23 = n by omega,
        show (((t * 2 ^ 23 + n) / 2 ^ 23 : ℕ) : ℤ) - 150 = (t : ℤ) - 149 by omega]

theorem roundPack_zero (neg : Bool) (e : ℤ) : roundPack neg 0 e = f32Zero neg := rfl

theorem f32Value_f32Zero (neg : Bool) : f32Value (f32Zero neg) = 0 := by
  rw [f32Value_of_unpack (unpack_withSign neg (by omega))]
  simp

/-! ### The last place of a result -/

theorem neg149_le_ulpExp (m : ℕ) (e : ℤ) : -149 ≤ ulpExp m e := by
  unfold ulpExp; split <;> omega

theorem log2_le_ulpExp (m : ℕ) (e : ℤ) : e + m.log2 - 23 ≤ ulpExp m e := by
  unfold ulpExp; split <;> omega

theorem ulpExp_eq_or (m : ℕ) (e : ℤ) : ulpExp m e = -149 ∨ ulpExp m e = e + m.log2 - 23 := by
  unfold ulpExp; split <;> simp

/-- In units of the last place a significand is below `2^24`. -/
theorem scaled_lt_of_ulpExp (m : ℕ) (e : ℤ) : (m : ℚ) * 2 ^ (e - ulpExp m e) < 2 ^ 24 := by
  have hm : (m : ℚ) < 2 ^ (m.log2 + 1) := by exact_mod_cast Nat.lt_log2_self
  calc (m : ℚ) * 2 ^ (e - ulpExp m e) < 2 ^ (m.log2 + 1) * 2 ^ (e - ulpExp m e) := by gcongr
    _ = 2 ^ (((m.log2 + 1 : ℕ) : ℤ) + (e - ulpExp m e)) := by rw [zpow_add₀ (by norm_num), zpow_natCast]
    _ ≤ 2 ^ (24 : ℤ) := zpow_le_zpow_right₀ (by norm_num) (by have := log2_le_ulpExp m e; omega)
    _ = 2 ^ 24 := by norm_num

/-- In units of the last place a significand reaches `2^23`, unless the last place is the least there is. -/
theorem le_scaled_of_ulpExp {m : ℕ} (hm : m ≠ 0) (e : ℤ) :
    ulpExp m e = -149 ∨ (2 : ℚ) ^ 23 ≤ m * 2 ^ (e - ulpExp m e) := by
  refine (ulpExp_eq_or m e).imp_right fun ht => ?_
  have hlog : (2 : ℚ) ^ m.log2 ≤ m := by exact_mod_cast Nat.log2_self_le hm
  calc (2 : ℚ) ^ 23 = 2 ^ ((m.log2 : ℤ) + (e - ulpExp m e)) := by
        rw [ht, show (m.log2 : ℤ) + (e - (e + m.log2 - 23)) = 23 by ring]; norm_num
    _ = 2 ^ m.log2 * 2 ^ (e - ulpExp m e) := by rw [zpow_add₀ (by norm_num), zpow_natCast]
    _ ≤ m * 2 ^ (e - ulpExp m e) := by gcongr

/-- The rounded significand in units of the last place. -/
theorem nearestEven_significand (m : ℕ) (e : ℤ) :
    NearestEven (roundShift m (ulpExp m e - e)) ((m : ℚ) * 2 ^ (e - ulpExp m e)) := by
  simpa using nearestEven_roundShift m (ulpExp m e - e)

theorem roundShift_le (m : ℕ) (e : ℤ) : roundShift m (ulpExp m e - e) ≤ 2 ^ 24 := by
  have := (nearestEven_significand m e).le_of_le (j := 2 ^ 24) (by push_cast; exact (scaled_lt_of_ulpExp m e).le)
  exact_mod_cast this

theorem ulpExp_eq_or_le_roundShift {m : ℕ} (hm : m ≠ 0) (e : ℤ) :
    ulpExp m e = -149 ∨ 2 ^ 23 ≤ roundShift m (ulpExp m e - e) := by
  refine (le_scaled_of_ulpExp hm e).imp_right fun hle => ?_
  have := (nearestEven_significand m e).ge_of_ge (j := 2 ^ 23) (by push_cast; exact hle)
  exact_mod_cast this

/-! ### The bits of `roundPack` -/

theorem exists_ulpExp_eq (m : ℕ) (e : ℤ) : ∃ t : ℕ, ulpExp m e = t - 149 :=
  ⟨(ulpExp m e + 149).toNat, by have := neg149_le_ulpExp m e; omega⟩

theorem roundMag_le (m : ℕ) (e : ℤ) : roundMag m e ≤ 0x7F800000 := by
  unfold roundMag; split
  · omega
  · dsimp only; split <;> omega

/-- Below the top, `roundMag` is the bits of the rounded significand at its last place. -/
theorem roundMag_eq {m : ℕ} (hm : m ≠ 0) {e : ℤ} {t : ℕ} (ht : ulpExp m e = t - 149)
    (h : t * 2 ^ 23 + roundShift m (ulpExp m e - e) < 0x7F800000) :
    roundMag m e = t * 2 ^ 23 + roundShift m (ulpExp m e - e) := by
  have hbits : (ulpExp m e + 149).toNat = t := by omega
  rw [roundMag, if_neg hm]
  dsimp only
  rw [hbits, if_pos h]

/-- A finite result has not reached the top. -/
theorem bits_lt_of_finite {neg : Bool} {m : ℕ} (hm : m ≠ 0) {e : ℤ} {t : ℕ} (ht : ulpExp m e = t - 149)
    (hf : isFinite (roundPack neg m e) = true) : t * 2 ^ 23 + roundShift m (ulpExp m e - e) < 0x7F800000 := by
  have hbits : (ulpExp m e + 149).toNat = t := by omega
  have hlt := withSign_lt_of_finite (roundMag_le m e) hf
  by_contra hge
  rw [roundMag, if_neg hm] at hlt
  dsimp only at hlt
  rw [hbits, if_neg hge] at hlt
  omega

theorem f32Value_roundPack {neg : Bool} {m : ℕ} (hm : m ≠ 0) {e : ℤ} {t : ℕ} (ht : ulpExp m e = t - 149)
    (h : t * 2 ^ 23 + roundShift m (ulpExp m e - e) < 0x7F800000) :
    f32Value (roundPack neg m e) =
      signed neg (roundShift m (ulpExp m e - e)) * 2 ^ ulpExp m e := by
  have hfull := ulpExp_eq_or_le_roundShift hm e
  rw [roundPack, roundMag_eq hm ht h, f32Value_withSign neg (roundShift_le m e) (by omega) h, ← ht]

theorem bit0_roundPack {neg : Bool} {m : ℕ} (hm : m ≠ 0) {e : ℤ} {t : ℕ} (ht : ulpExp m e = t - 149)
    (h : t * 2 ^ 23 + roundShift m (ulpExp m e - e) < 0x7F800000) (heven : roundShift m (ulpExp m e - e) % 2 = 0) :
    (roundPack neg m e)[0] = false := by
  rw [roundPack, roundMag_eq hm ht h]
  exact bit0_withSign neg (by omega) (by omega)

/-! ### The nearest binary32 value -/

/-- `r` is as near to `exact` as any finite pattern, and its last bit is 0 when another value is as near. -/
def NearestBinary32 (r : F32) (exact : ℚ) : Prop :=
  ∀ y : F32, isFinite y = true →
    |f32Value r - exact| ≤ |f32Value y - exact|
      ∧ (|f32Value r - exact| = |f32Value y - exact| → f32Value y ≠ f32Value r → r[0] = false)

theorem nearestBinary32_self (r : F32) : NearestBinary32 r (f32Value r) := by
  intro y _
  rw [sub_self, abs_zero]
  exact ⟨abs_nonneg _, fun heq hne => absurd (sub_eq_zero.1 (abs_eq_zero.1 heq.symm)) hne⟩

/-- A finite value is a number of at most 24 bits at an exponent from -149, written with either sign
before it. -/
theorem f32Value_eq_signed (neg : Bool) {y : F32} (hy : isFinite y = true) :
    ∃ (j e : ℤ), |j| < 2 ^ 24 ∧ -149 ≤ e ∧ f32Value y = signed neg j * 2 ^ e := by
  obtain ⟨n, m, e, h, hm, he, -⟩ := unpack_of_finite hy
  refine ⟨if n = neg then m else -m, e, ?_, he, ?_⟩
  · split <;> simp <;> omega
  · rw [f32Value_of_unpack h]; cases n <;> cases neg <;> simp [signed]

/-- In units of a last place `2^t`, the integer nearest to `z` is nearer than every number of at most 24 bits. A finer
one (`e < t`) lies below `2^23`, which is itself an integer no nearer than `n`. -/
theorem NearestEven.le_dist_grid {n : ℤ} {z : ℚ} (h : NearestEven n z) {t j e : ℤ} (ht : t = -149 ∨ 2 ^ 23 ≤ z)
    (hj : |j| < 2 ^ 24) (he : -149 ≤ e) :
    |(n : ℚ) - z| ≤ |j * 2 ^ (e - t) - z|
      ∧ (|(n : ℚ) - z| = |j * 2 ^ (e - t) - z| → j * 2 ^ (e - t) ≠ (n : ℚ) → n % 2 = 0) := by
  by_cases hte : t ≤ e
  · have hint : (j : ℚ) * 2 ^ (e - t) = (j * 2 ^ (e - t).toNat : ℤ) := by
      push_cast
      rw [← zpow_natCast, Int.toNat_of_nonneg (sub_nonneg.2 hte)]
    obtain ⟨hle, htie⟩ := h.le_dist (j * 2 ^ (e - t).toNat)
    rw [hint]
    exact ⟨hle, fun heq hne => htie heq (fun hc => hne (by rw [hc]))⟩
  · have hz : (2 : ℚ) ^ 23 ≤ z := ht.resolve_left (by omega)
    have hpow : (2 : ℚ) ^ (e - t) ≤ 2 ^ (-1 : ℤ) := zpow_le_zpow_right₀ (by norm_num) (by omega)
    have hfine : (j : ℚ) * 2 ^ (e - t) < 2 ^ 23 := by
      have hj' : (j : ℚ) < 2 ^ 24 := by exact_mod_cast (abs_lt.1 hj).2
      calc (j : ℚ) * 2 ^ (e - t) < 2 ^ 24 * 2 ^ (e - t) := by gcongr
        _ ≤ 2 ^ 24 * 2 ^ (-1 : ℤ) := by gcongr
        _ = 2 ^ 23 := by norm_num
    have hmid : |(n : ℚ) - z| ≤ z - 2 ^ 23 := by
      have := (h.le_dist (2 ^ 23)).1
      rwa [Int.cast_pow, Int.cast_ofNat, abs_sub_comm (2 ^ 23) z, abs_of_nonneg (sub_nonneg.2 hz)] at this
    have hlt : |(n : ℚ) - z| < |j * 2 ^ (e - t) - z| := by
      rw [abs_sub_comm (j * 2 ^ (e - t) : ℚ) z, abs_of_nonneg (a := z - j * 2 ^ (e - t)) (by linarith)]
      linarith
    exact ⟨hlt.le, fun heq => absurd heq hlt.ne⟩

/-! ### A significand with a sticky bit -/

/-- `m` stands for `x` in a rounding: it is `x`, or it is odd (a sticky bit), within 1 of `x` and long enough that its
last two bits are never kept. -/
def StandsFor (m : ℕ) (x : ℚ) : Prop :=
  (m : ℚ) = x ∨ (m % 2 = 1 ∧ 2 ^ 25 ≤ m ∧ |x - m| < 1)

theorem mul_zpow_neg_add_two (x : ℚ) (k : ℕ) : x * 2 ^ (-((k : ℤ) + 2)) = x / 2 ^ (k + 2) := by
  rw [zpow_neg, div_eq_mul_inv]; norm_cast

theorem abs_sub_div_of_pos (n w : ℚ) {d : ℚ} (hd : 0 < d) : |n - w / d| = |n * d - w| / d := by
  rw [← abs_of_pos hd, ← abs_div, abs_of_pos hd, sub_div, mul_div_cancel_right₀ _ hd.ne']

/-- The numbers half way between multiples of `2^(k+2)` are even, so moving an odd `m` by less than 1 crosses none. -/
theorem NearestEven.of_sticky {n : ℤ} {m : ℕ} {x : ℚ} {k : ℕ} (h : NearestEven n (m * 2 ^ (-((k : ℤ) + 2))))
    (hodd : m % 2 = 1) (hx : |x - m| < 1) : NearestEven n (x * 2 ^ (-((k : ℤ) + 2))) := by
  have hp : (0 : ℚ) < 2 ^ (k + 2) := by positivity
  have hhalf : (1 : ℚ) / 2 * 2 ^ (k + 2) = 2 ^ (k + 1) := by ring
  have hm : |n * 2 ^ (k + 2) - (m : ℤ)| ≤ 2 ^ (k + 1) := by
    have hle := h.1
    rw [mul_zpow_neg_add_two, abs_sub_div_of_pos _ _ hp, div_le_iff₀ hp, hhalf] at hle
    exact_mod_cast hle
  have hm_odd : |n * 2 ^ (k + 2) - (m : ℤ)| ≤ 2 ^ (k + 1) - 1 := by
    have h4 : n * 2 ^ (k + 2) = 4 * (n * 2 ^ k) := by ring
    have h2 : (2 : ℤ) ^ (k + 1) = 2 * 2 ^ k := by ring
    rw [abs_le] at hm ⊢
    omega
  have hlt : |(n : ℚ) - x * 2 ^ (-((k : ℤ) + 2))| < 1 / 2 := by
    have hmq : |(n : ℚ) * 2 ^ (k + 2) - m| ≤ 2 ^ (k + 1) - 1 := by exact_mod_cast hm_odd
    have htri := abs_sub_le ((n : ℚ) * 2 ^ (k + 2)) m x
    rw [abs_sub_comm (m : ℚ)] at htri
    rw [mul_zpow_neg_add_two, abs_sub_div_of_pos _ _ hp, div_lt_iff₀ hp, hhalf]
    linarith
  exact ⟨hlt.le, fun heq => absurd heq hlt.ne⟩

/-- A long significand loses at least two bits. -/
theorem two_le_shift_of_long {m : ℕ} (hm : 2 ^ 25 ≤ m) (e : ℤ) : ∃ k : ℕ, e - ulpExp m e = -((k : ℤ) + 2) := by
  have hlog : 25 ≤ m.log2 := (Nat.le_log2 (by omega)).2 hm
  have := log2_le_ulpExp m e
  exact ⟨(ulpExp m e - e - 2).toNat, by omega⟩

theorem StandsFor.nearestEven {m : ℕ} {x : ℚ} (h : StandsFor m x) (e : ℤ) :
    NearestEven (roundShift m (ulpExp m e - e)) (x * 2 ^ (e - ulpExp m e)) := by
  have hm := nearestEven_significand m e
  obtain rfl | ⟨hodd, hlong, hx⟩ := h
  · exact hm
  · obtain ⟨k, hk⟩ := two_le_shift_of_long hlong e
    rw [hk] at hm ⊢
    exact hm.of_sticky hodd hx

theorem StandsFor.le_scaled {m : ℕ} {x : ℚ} (h : StandsFor m x) (hm : m ≠ 0) (e : ℤ) :
    ulpExp m e = -149 ∨ (2 : ℚ) ^ 23 ≤ x * 2 ^ (e - ulpExp m e) := by
  have hle := le_scaled_of_ulpExp hm e
  obtain rfl | ⟨hodd, hlong, hx⟩ := h
  · exact hle
  · refine hle.imp_right fun hle => ?_
    obtain ⟨k, hk⟩ := two_le_shift_of_long hlong e
    rw [hk, mul_zpow_neg_add_two, le_div_iff₀ (by positivity)] at hle ⊢
    have hnat : 2 ^ 23 * 2 ^ (k + 2) ≤ m := by exact_mod_cast hle
    have hsucc : 2 ^ 23 * 2 ^ (k + 2) + 1 ≤ m := by rw [pow_succ] at hnat ⊢; omega
    have : (2 : ℚ) ^ 23 * 2 ^ (k + 2) + 1 ≤ m := by exact_mod_cast hsucc
    have := (abs_lt.1 hx).1
    linarith

theorem StandsFor.eq_zero {x : ℚ} (h : StandsFor 0 x) : x = 0 := by
  obtain h | ⟨hodd, -⟩ := h
  · exact_mod_cast h.symm
  · omega

/-! ### `roundPack` rounds to nearest even -/

/-- A finite result of `roundPack` is nearest to the number that the significand stands for: in units of the last place
its own significand is the nearest integer. -/
theorem nearestBinary32_roundPack {neg : Bool} {m : ℕ} {e : ℤ} {x : ℚ} (hx : StandsFor m x)
    (hf : isFinite (roundPack neg m e) = true) :
    NearestBinary32 (roundPack neg m e) (signed neg x * 2 ^ e) := by
  by_cases hm : m = 0
  · subst hm
    have hzero : signed neg x * 2 ^ e = f32Value (roundPack neg 0 e) := by
      rw [hx.eq_zero, roundPack_zero, f32Value_f32Zero]; simp [signed]
    rw [hzero]
    exact nearestBinary32_self _
  · intro y hy
    obtain ⟨t, ht⟩ := exists_ulpExp_eq m e
    have hlt := bits_lt_of_finite hm ht hf
    obtain ⟨j, e', hj, he', hyv⟩ := f32Value_eq_signed neg hy
    have hshift (w : ℚ) (k : ℤ) : signed neg w * 2 ^ k = signed neg (w * 2 ^ (k - ulpExp m e)) * 2 ^ ulpExp m e := by
      rw [signed_mul, mul_assoc, ← zpow_add₀ (by norm_num), sub_add_cancel]
    obtain ⟨hle, htie⟩ := (hx.nearestEven e).le_dist_grid (hx.le_scaled hm e) hj he'
    have hu : (0 : ℚ) < 2 ^ ulpExp m e := by positivity
    rw [hyv, f32Value_roundPack hm ht hlt, hshift x, hshift j, abs_signed_mul_zpow_sub, abs_signed_mul_zpow_sub]
    refine ⟨mul_le_mul_of_nonneg_right hle hu.le, fun heq hne => bit0_roundPack hm ht hlt ?_⟩
    have heven := htie (mul_right_cancel₀ hu.ne' heq) fun hc => hne (by rw [hc, Int.cast_natCast])
    omega

/-! ### The operations -/

theorem unpack_f32Neg {b : F32} {n : Bool} {m : ℕ} {e : ℤ} (h : unpack b = .fin n m e) :
    unpack (f32Neg b) = .fin (!n) m e := by
  have hexp : f32Exp (f32Neg b) = f32Exp b := by simp [f32Exp, f32Neg, BitVec.extractLsb'_xor]
  have hfrac : f32Frac (f32Neg b) = f32Frac b := by simp [f32Frac, f32Neg, BitVec.extractLsb'_xor]
  have hmsb : (f32Neg b).msb = !b.msb := by
    rw [f32Neg, BitVec.msb_xor, show (0x80000000#32).msb = true from by decide, Bool.xor_true]
  have hne : f32Exp b ≠ 255 := by simpa [isFinite] using isFinite_of_unpack h
  rw [unpack, if_neg hne] at h
  rw [unpack, hexp, hfrac, hmsb, if_neg hne]
  split at h <;> cases h <;> simp [*]

theorem nearestBinary32_addFin {n1 n2 : Bool} {m1 m2 : ℕ} {e1 e2 : ℤ}
    (hf : isFinite (addFin n1 m1 e1 n2 m2 e2) = true) :
    NearestBinary32 (addFin n1 m1 e1 n2 m2 e2) (signed n1 m1 * 2 ^ e1 + signed n2 m2 * 2 ^ e2) := by
  have hsum : signed n1 m1 * 2 ^ e1 + signed n2 m2 * 2 ^ e2 =
      ((scaled n1 m1 e1 (minExp e1 e2) + scaled n2 m2 e2 (minExp e1 e2) : ℤ) : ℚ) * 2 ^ minExp e1 e2 := by
    rw [Int.cast_add, add_mul, scaled_value n1 m1 (minExp_le_left e1 e2), scaled_value n2 m2 (minExp_le_right e1 e2)]
    rfl
  rw [hsum]
  rw [addFin] at hf ⊢
  generalize scaled n1 m1 e1 (minExp e1 e2) + scaled n2 m2 e2 (minExp e1 e2) = s at hf ⊢
  by_cases hs : s = 0
  · subst hs
    have := nearestBinary32_self (f32Zero (n1 && n2))
    simpa [f32Value_f32Zero] using this
  · rw [if_neg hs] at hf ⊢
    rw [int_eq_signed s]
    exact nearestBinary32_roundPack (.inl rfl) hf

theorem addCore_fin (op : FloatOp) (x y : F32) {a b : F32} {n1 n2 : Bool} {m1 m2 : ℕ} {e1 e2 : ℤ}
    (ha : unpack a = .fin n1 m1 e1) (hb : unpack b = .fin n2 m2 e2) :
    addCore op x y a b = addFin n1 m1 e1 n2 m2 e2 := by
  rw [addCore, ha, hb]

theorem nearestBinary32_fadd {a b : F32} (ha : isFinite a = true) (hb : isFinite b = true)
    (hr : isFinite (fadd a b) = true) : NearestBinary32 (fadd a b) (f32Value a + f32Value b) := by
  obtain ⟨n1, m1, e1, h1, -⟩ := unpack_of_finite ha
  obtain ⟨n2, m2, e2, h2, -⟩ := unpack_of_finite hb
  rw [fadd, addCore_fin _ _ _ h1 h2] at hr ⊢
  rw [f32Value_eq_signed_mul h1, f32Value_eq_signed_mul h2]
  exact nearestBinary32_addFin hr

theorem nearestBinary32_fsub {a b : F32} (ha : isFinite a = true) (hb : isFinite b = true)
    (hr : isFinite (fsub a b) = true) : NearestBinary32 (fsub a b) (f32Value a - f32Value b) := by
  obtain ⟨n1, m1, e1, h1, -⟩ := unpack_of_finite ha
  obtain ⟨n2, m2, e2, h2, -⟩ := unpack_of_finite hb
  rw [fsub, addCore_fin _ _ _ h1 (unpack_f32Neg h2)] at hr ⊢
  rw [f32Value_eq_signed_mul h1, f32Value_eq_signed_mul h2, sub_eq_add_neg, ← neg_mul, ← signed_not]
  exact nearestBinary32_addFin hr

theorem nearestBinary32_fmul {a b : F32} (ha : isFinite a = true) (hb : isFinite b = true)
    (hr : isFinite (fmul a b) = true) : NearestBinary32 (fmul a b) (f32Value a * f32Value b) := by
  obtain ⟨n1, m1, e1, h1, -⟩ := unpack_of_finite ha
  obtain ⟨n2, m2, e2, h2, -⟩ := unpack_of_finite hb
  have hfin : fmul a b = roundPack (n1 ^^ n2) (m1 * m2) (e1 + e2) := by rw [fmul, h1, h2]
  have hexact : f32Value a * f32Value b = signed (n1 ^^ n2) (m1 * m2) * 2 ^ (e1 + e2) := by
    rw [f32Value_eq_signed_mul h1, f32Value_eq_signed_mul h2, zpow_add₀ (by norm_num), ← signed_mul_signed]; ring
  rw [hfin] at hr ⊢
  rw [hexact]
  exact nearestBinary32_roundPack (.inl (Nat.cast_mul m1 m2)) hr

/-- The quotient of two significands in units of `2^-65`, as `divFin` takes it: twice the integer quotient of `2^64`
times the first, and a bit that says whether a remainder is left. -/
theorem standsFor_quotient {m1 m2 : ℕ} (h2 : 0 < m2) (h2' : m2 < 2 ^ 24) :
    StandsFor (2 * (m1 * 2 ^ 64 / m2) + if m1 * 2 ^ 64 % m2 = 0 then 0 else 1) ((m1 : ℚ) / m2 * 2 ^ 65) := by
  have hm2 : (0 : ℚ) < m2 := by exact_mod_cast h2
  have hdiv : (m1 : ℚ) * 2 ^ 64 = m2 * (m1 * 2 ^ 64 / m2 : ℕ) + (m1 * 2 ^ 64 % m2 : ℕ) := by
    exact_mod_cast (Nat.div_add_mod (m1 * 2 ^ 64) m2).symm
  have hx : (m1 : ℚ) / m2 * 2 ^ 65 = 2 * (m1 * 2 ^ 64 / m2 : ℕ) + 2 * ((m1 * 2 ^ 64 % m2 : ℕ) / m2) := by
    field_simp
    linarith
  have hlt : m1 * 2 ^ 64 % m2 < m2 := Nat.mod_lt _ h2
  rw [hx]
  by_cases hr : m1 * 2 ^ 64 % m2 = 0
  · left; rw [hr]; simp
  · have hlong : 2 ^ 40 ≤ m1 * 2 ^ 64 / m2 := by
      rw [Nat.le_div_iff_mul_le h2]
      have : m1 ≠ 0 := by rintro rfl; simp at hr
      calc 2 ^ 40 * m2 ≤ 2 ^ 40 * 2 ^ 24 := by gcongr
        _ ≤ m1 * 2 ^ 64 := by omega
    rw [if_neg hr]
    refine .inr ⟨by omega, by omega, ?_⟩
    have hpos : (0 : ℚ) < (m1 * 2 ^ 64 % m2 : ℕ) / m2 := by
      have : 0 < m1 * 2 ^ 64 % m2 := by omega
      positivity
    have hone : ((m1 * 2 ^ 64 % m2 : ℕ) : ℚ) / m2 < 1 := by rw [div_lt_one hm2]; exact_mod_cast hlt
    rw [abs_lt]
    push_cast
    constructor <;> linarith

theorem nearestBinary32_fdiv {a b : F32} (ha : isFinite a = true) (hb : isFinite b = true) (hb0 : f32Value b ≠ 0)
    (hr : isFinite (fdiv a b) = true) : NearestBinary32 (fdiv a b) (f32Value a / f32Value b) := by
  obtain ⟨n1, m1, e1, h1, -⟩ := unpack_of_finite ha
  obtain ⟨n2, m2, e2, h2, hm2, -⟩ := unpack_of_finite hb
  have hne : m2 ≠ 0 := by
    rintro rfl
    exact hb0 (by rw [f32Value_eq_signed_mul h2]; simp [signed])
  have hfin : fdiv a b = divFin n1 m1 e1 n2 m2 e2 := by rw [fdiv, h1, h2]; exact if_neg hne
  have hexact : f32Value a / f32Value b = signed (n1 ^^ n2) ((m1 : ℚ) / m2 * 2 ^ 65) * 2 ^ (e1 - e2 - 65) := by
    rw [f32Value_eq_signed_mul h1, f32Value_eq_signed_mul h2, mul_div_mul_comm, signed_div_signed, signed_mul,
      ← zpow_sub₀ (by norm_num), zpow_sub₀ (by norm_num) (e1 - e2) 65,
      show (2 : ℚ) ^ (65 : ℤ) = 2 ^ 65 by norm_num]
    field_simp
  rw [hfin, divFin] at hr ⊢
  rw [hexact]
  exact nearestBinary32_roundPack (standsFor_quotient (Nat.pos_of_ne_zero hne) hm2) hr

/-! ### `i2f` (R12) and the statement -/

/-- The last place of an integer up to `2^24` is at most 1, but for `2^24` itself, which is even. -/
theorem ulpExp_of_le {m : ℕ} (h : m ≤ 2 ^ 24) : ulpExp m 0 ≤ 0 ∨ (ulpExp m 0 = 1 ∧ m = 2 ^ 24) := by
  by_cases hm : m = 2 ^ 24
  · subst hm; exact .inr ⟨by decide, rfl⟩
  · have hlog : m.log2 ≤ 23 := by
      by_cases h0 : m = 0
      · subst h0; decide
      · exact Nat.lt_succ_iff.1 ((Nat.log2_lt h0).2 (by omega))
    have := ulpExp_eq_or m 0
    omega

/-- Up to `2^24` an integer is a whole number of its last places. -/
theorem exists_int_scaled {m : ℕ} (h : m ≤ 2 ^ 24) : ∃ j : ℤ, (m : ℚ) * 2 ^ (0 - ulpExp m 0) = j := by
  obtain hle | ⟨hone, rfl⟩ := ulpExp_of_le h
  · refine ⟨m * 2 ^ (-ulpExp m 0).toNat, ?_⟩
    push_cast
    rw [← zpow_natCast, Int.toNat_of_nonneg (by omega), zero_sub]
  · exact ⟨2 ^ 23, by rw [hone]; norm_num⟩

theorem roundPack_exact (neg : Bool) {m : ℕ} (h : m ≤ 2 ^ 24) :
    isFinite (roundPack neg m 0) = true ∧ f32Value (roundPack neg m 0) = signed neg m := by
  by_cases hm : m = 0
  · subst hm
    rw [roundPack_zero, f32Value_f32Zero]
    exact ⟨isFinite_withSign neg (by omega), by simp [signed]⟩
  · obtain ⟨t, ht⟩ := exists_ulpExp_eq m 0
    have hN := roundShift_le m 0
    have hu := ulpExp_of_le h
    have hlt : t * 2 ^ 23 + roundShift m (ulpExp m 0 - 0) < 0x7F800000 := by omega
    obtain ⟨j, hj⟩ := exists_int_scaled h
    have hnear := nearestEven_significand m 0
    rw [hj] at hnear
    have hexact : (roundShift m (ulpExp m 0 - 0) : ℚ) = m * 2 ^ (0 - ulpExp m 0) := by
      rw [hj, ← hnear.eq_of_int, Int.cast_natCast]
    refine ⟨?_, ?_⟩
    · rw [roundPack, roundMag_eq hm ht hlt]; exact isFinite_withSign neg hlt
    · rw [f32Value_roundPack hm ht hlt, ← signed_mul, hexact, mul_assoc, ← zpow_add₀ (by norm_num)]
      simp

theorem i2f_exact {n : ℤ} (h : |n| ≤ 2 ^ 24) : isFinite (i2f n) = true ∧ f32Value (i2f n) = n := by
  rw [i2f, int_eq_signed n]
  exact roundPack_exact _ (by rw [Int.abs_eq_natAbs] at h; exact_mod_cast h)

/-- Settles O41: each operation is one `roundPack` of the exact result, or of a significand with a sticky bit that
stands for it. -/
theorem floatOperationsRoundToNearestEven : Obligations.FloatOperationsRoundToNearestEven := by
  refine ⟨?_, fun n => i2f_exact, fun x => nearestEven_f2i, fun a b ha hb => ?_⟩
  · rintro a b r exact ha hb hr (⟨rfl, rfl⟩ | ⟨rfl, rfl⟩ | ⟨rfl, rfl⟩ | ⟨rfl, hb0, rfl⟩)
    · exact nearestBinary32_fadd ha hb hr
    · exact nearestBinary32_fsub ha hb hr
    · exact nearestBinary32_fmul ha hb hr
    · exact nearestBinary32_fdiv ha hb hb0 hr
  · rw [flt_eq_decide ha hb, fle_eq_decide ha hb, decide_eq_true_eq, decide_eq_true_eq]
    exact ⟨Iff.rfl, Iff.rfl⟩

end Sys2Proof.Machine
end

section
/-! PROOFS. What a performed word can do to the state, said once: fail, change one slot of the chip pool, or move the engine
on the live pair. What these keep, every step keeps. -/

namespace Sys2Proof.Machine

open Sys2Proof

/-- A setter's change of the analogue parameters (R154 to R160): one field takes the conditioned operand. -/
inductive ParamsStep (p : AnalogParams) : AnalogParams → Prop where
  | gain (x : F32) : ParamsStep p { p with gain := clampf x fPos0 f4 }
  | detune (x : F32) : ParamsStep p { p with detune := detuneOf x }
  | leak (x : F32) : ParamsStep p { p with leak := clampf x fPos0 f1 }
  | snr (x : F32) : ParamsStep p { p with snr := clampf x fPos0 f1 }
  | dcbias (x : F32) : ParamsStep p { p with dcbias := clampf x fNeg1 f1 }
  | polemix (x : F32) : ParamsStep p { p with polemix := clampf x fPos0 f1 }
  | clkHz (x : F32) : ParamsStep p { p with clkHz := clkHzOf x }

/-- What a WR or IO command does to the slot it names (R110, R150 to R153). -/
inductive SlotStep (k : Cfg) : Option Chip → Option Chip → Prop where
  | write (c : Chip) (r : Reg) (d : Byte) : SlotStep k (some c) (some (chipWrite c r d))
  | params (c : Chip) {p : AnalogParams} (hp : ParamsStep c.params p) : SlotStep k (some c) (some { c with params := p })
  | tick (c : Chip) : SlotStep k (some c) (some (tick k c))
  | create : SlotStep k none (some chipCreated)
  | destroy (c : Chip) : SlotStep k (some c) none

/-- What an event or a CLK does to the engine (R264 to R267). -/
inductive EngineStep (k : Cfg) (e : Engine) : Engine → Prop where
  | noteOn (key : Key) (vel : Velocity) : EngineStep k e { e with vm := (e.vm.setDown key true).setVel key vel }
  | noteOff (key : Key) : EngineStep k e { e with vm := e.vm.setDown key false }
  | ctrlChange (idx : Nat) (val : BitVec 14) : EngineStep k e (ctrlEffect e idx val)
  | clk : EngineStep k e (runBlock k e).1

/-- What a performed word can do to the state. -/
inductive Effect (s : State) : State → Prop where
  | fail (code : FailCode) (v : BitVec 32) : Effect s (s.failed code v)
  | slot {n : Nat} {x y : Option Chip} (v : BitVec 32) (hx : s.pool[n]? = some x) (h : SlotStep s.cfg x y) :
      Effect s { s with pool := s.pool.set n y, rsp := [.ok v] }
  | engine {a m : Chip} {e : Engine} (r : List Response) (hp : PairOf s a m)
      (h : EngineStep s.cfg { vm := s.vm, audio := a, modulation := m } e) : Effect s ((s.withEngine e).withRsp r)

theorem wrCommand_effect (r : Reg) (h d : Byte) (s : State) : ∃ t, wrCommand r h d s = .next t ∧ Effect s t := by
  obtain ⟨-, heq⟩ | ⟨n, c, ⟨-, -, hc⟩, heq⟩ := wrCommand_cases r h d s
  · exact ⟨_, heq, .fail _ _⟩
  · exact ⟨_, heq, .slot _ hc (.write c r d)⟩

theorem ioCommand_effect {f : Chip → Chip × F32} {s : State} (hf : ∀ c, SlotStep s.cfg (some c) (some (f c).1)) (h : Byte) :
    ∃ t, ioCommand f h s = .next t ∧ Effect s t := by
  obtain ⟨-, heq⟩ | ⟨n, c, ⟨-, -, hc⟩, heq⟩ := ioCommand_cases f h s
  · exact ⟨_, heq, .fail _ _⟩
  · exact ⟨_, heq, .slot _ hc (hf c)⟩

theorem execCreate_effect (h : Byte) (p : F32) (s : State) : ∃ t, execCreate h p s = .next t ∧ Effect s t := by
  cases hl : leastDead s.pool with
  | none => exact ⟨_, by rw [execCreate, hl]; rfl, .fail .poolFull (sentinel .io)⟩
  | some n =>
    exact ⟨_, by rw [execCreate, hl]; rfl, .slot (n := n) (i2f n) (leastDead_eq_some.1 hl).1 .create⟩

theorem execDestroy_effect (h : Byte) (p : F32) (s : State) : ∃ t, execDestroy h p s = .next t ∧ Effect s t := by
  cases hl : s.lookup h with
  | none => exact ⟨_, execDestroy_of_invalid p (State.lookup_eq_none.1 hl), .fail _ _⟩
  | some x =>
    obtain ⟨h0, hn, hc⟩ : HandleOf s h x.1 x.2 := State.lookup_eq_some.1 hl
    exact ⟨_, execDestroy_of_handle p ⟨h0, hn, hc⟩, .slot _ hc (.destroy x.2)⟩

theorem evCommand_effect {f : Engine → Engine} {s : State} (hf : ∀ e, EngineStep s.cfg e (f e)) :
    ∃ t, evCommand f s = .next t ∧ Effect s t := by
  obtain hb | ⟨a, m, hp⟩ := pair_or_broken s
  · exact ⟨_, evCommand_of_broken f hb, .fail _ _⟩
  · exact ⟨_, evCommand_of_pair f hp, .engine [.ok 0#32] hp (hf _)⟩

theorem execCtrlChange_effect (idx : BitVec 7) (val : BitVec 14) (s : State) :
    ∃ t, execCtrlChange idx val s = .next t ∧ Effect s t := by
  unfold execCtrlChange
  split
  · exact ⟨_, failWith_eq s .ev .badCtrl, .fail _ _⟩
  · exact evCommand_effect fun e => .ctrlChange idx.toNat val

theorem execClk_effect (s : State) : ∃ t, execClk s = .next t ∧ Effect s t := by
  obtain hb | ⟨a, m, hp⟩ := pair_or_broken s
  · exact ⟨_, execClk_of_broken hb, .fail _ _⟩
  · exact ⟨_, execClk_of_pair hp, .engine _ hp .clk⟩

/-- Every command answers, and its next state is one of the effects. -/
theorem exec_effect (i : Instr) (s : State) : ∃ t, exec i s = .next t ∧ Effect s t := by
  cases i with
  | create h p => exact execCreate_effect h p s
  | destroy h p => exact execDestroy_effect h p s
  | advance h p => exact ioCommand_effect (fun c => .tick c) h
  | setGain h p => exact ioCommand_effect (fun c => .params c (.gain p)) h
  | setDetune h p => exact ioCommand_effect (fun c => .params c (.detune p)) h
  | setLeakage h p => exact ioCommand_effect (fun c => .params c (.leak p)) h
  | setSnr h p => exact ioCommand_effect (fun c => .params c (.snr p)) h
  | setDcbias h p => exact ioCommand_effect (fun c => .params c (.dcbias p)) h
  | setPolemix h p => exact ioCommand_effect (fun c => .params c (.polemix p)) h
  | setClockrate h p => exact ioCommand_effect (fun c => .params c (.clkHz p)) h
  | noteOn key vel => exact evCommand_effect fun e => .noteOn key vel
  | noteOff key vel => exact evCommand_effect fun e => .noteOff key
  | ctrlChange idx val => exact execCtrlChange_effect idx val s
  | clk => exact execClk_effect s
  | _ => exact wrCommand_effect _ _ _ s

/-- So does every command word, accepted by the decoder or not. -/
theorem perform_effect (w : CmdWord) (s : State) : ∃ t, perform w s = .next t ∧ Effect s t := by
  cases hd : decode w with
  | ok i =>
    obtain ⟨t, heq, h⟩ := exec_effect i s
    exact ⟨t, by rw [perform, hd]; exact heq, h⟩
  | error e =>
    obtain ⟨cls, code, heq⟩ := rejectWord_cases e s
    exact ⟨_, by rw [perform, hd]; exact heq, .fail _ _⟩

/-- A step leaves instantiation, pool and VoiceManager alone, or is an effect on the state with the word taken. -/
theorem step_effect {s t : State} (h : step s = .next t) :
    (t.cfg = s.cfg ∧ t.pool = s.pool ∧ t.vm = s.vm) ∨ ∃ rest, Effect { s.advance with port := rest } t := by
  obtain ⟨c, -, heq⟩ | ⟨-, -, heq⟩ | ⟨w, rest, -, -, heq⟩ := step_cases s
  · obtain rfl : s.advance.accept c = t := by rw [heq] at h; cases h; rfl
    exact .inl ⟨by simp, by simp, by simp⟩
  · obtain rfl : s.advance = t := by rw [heq] at h; cases h; rfl
    exact .inl ⟨rfl, rfl, rfl⟩
  · obtain ⟨t', heq', he⟩ := perform_effect w { s.advance with port := rest }
    obtain rfl : t' = t := by rw [heq, heq'] at h; cases h; rfl
    exact .inr ⟨rest, he⟩

end Sys2Proof.Machine
end

section
/-! PROOFS. The capacities are fixed (R47): no command changes the number of slots or the length of the arpeggiator
table. -/

namespace Sys2Proof.Machine

open Sys2Proof

@[simp] theorem freeVoice_arp (e : Engine) (v : VoiceId) : (freeVoice e v).vm.arp = e.vm.arp := by rw [freeVoice_vm]; rfl

@[simp] theorem assignVoice_arp (c : Cfg) (e : Engine) (v : VoiceId) (k : Key) :
    (assignVoice c e v k).vm.arp = e.vm.arp := by
  rw [assignVoice_vm]; rfl

@[simp] theorem scan_arp (c : Cfg) (e : Engine) : (scan c e).vm.arp = e.vm.arp :=
  scan_induction (P := fun e' => e'.vm.arp = e.vm.arp) (fun _ _ _ h => h)
    (fun _ _ h => by rw [freeVoice_arp]; exact h) (fun _ _ _ h => by rw [assignVoice_arp]; exact h) rfl

/-- The table rebuilt has the length it had (R310): the keys written are no more than its entries. -/
@[simp] theorem rebuildArp_arp_length (m : VoiceManager) : (rebuildArp m).arp.length = m.arp.length := by
  simp only [rebuildArp, VoiceManager.arpCap, List.length_append, List.length_take, List.length_drop]
  omega

@[simp] theorem arpPlay_arp (c : Cfg) (e : Engine) (k : Key) : (arpPlay c e k).vm.arp = e.vm.arp := by
  simp only [arpPlay]; split
  · split <;> rfl
  · exact assignVoice_arp ..

@[simp] theorem arpStep_arp (c : Cfg) (e : Engine) : (arpStep c e).vm.arp = e.vm.arp := by
  simp only [arpStep, arpPlay_arp]; split <;> rfl

@[simp] theorem arpDue_arp (c : Cfg) (e : Engine) : (arpDue c e).vm.arp = e.vm.arp := by
  unfold arpDue; split
  · rw [Engine.addArpCnt_vm_arp, arpStep_arp]
  · rfl

@[simp] theorem arpEmpty_arp (e : Engine) : (arpEmpty e).vm.arp = e.vm.arp := by
  simp only [arpEmpty]; split
  · rfl
  · exact freeVoice_arp e .v2

@[simp] theorem arpUpdate_arp_length (c : Cfg) (e : Engine) : (arpUpdate c e).vm.arp.length = e.vm.arp.length := by
  simp only [arpUpdate]; split
  · split <;> simp
  · rfl

@[simp] theorem arpOwed_arp (c : Cfg) (e : Engine) : (arpOwed c e).vm.arp = e.vm.arp := by
  obtain ⟨-, h⟩ | ⟨-, -, h⟩ | ⟨k, -, -, h⟩ := arpOwed_cases c e
  · rw [h]
  · rw [h]
  · rw [h]; exact assignVoice_arp ..

/-- What one tick of a CLK keeps, a run of ticks keeps. -/
theorem clkTicks_induction {P : Engine → Prop} {c : Cfg} (hs : ∀ e, P e → P (clkTick c e)) (n : Nat) {e : Engine} (h : P e) :
    P (clkTicks c n e).1 := by
  induction n generalizing e with
  | zero => exact h
  | succ n ih => exact ih (hs e h)

/-- What one sub-block keeps, a run of sub-blocks keeps. -/
theorem subBlocks_induction {P : Engine → Prop} {c : Cfg} (hs : ∀ e, P e → P (subBlock c e).1) (n : Nat) {e : Engine}
    (h : P e) : P (subBlocks c n e).1 := by
  induction n generalizing e with
  | zero => exact h
  | succ n ih => exact ih (hs e h)

@[simp] theorem clkTicks_arp (c : Cfg) (n : Nat) (e : Engine) : (clkTicks c n e).1.vm.arp = e.vm.arp :=
  clkTicks_induction (P := fun e' => e'.vm.arp = e.vm.arp) (fun _ h => h) n rfl

@[simp] theorem subBlock_arp (c : Cfg) (e : Engine) : (subBlock c e).1.vm.arp = e.vm.arp := by
  simp only [subBlock, arpOwed_arp, clkTicks_arp, evalRoutes_vm]

@[simp] theorem runBlock_arp_length (c : Cfg) (e : Engine) : (runBlock c e).1.vm.arp.length = e.vm.arp.length := by
  refine subBlocks_induction (P := fun e' => e'.vm.arp.length = e.vm.arp.length) (fun e' h => ?_) _ ?_
  · rw [subBlock_arp]; exact h
  · rw [arpUpdate_arp_length, scan_arp]

@[simp] theorem freeAll_arp (e : Engine) : (freeAll e).vm.arp = e.vm.arp := by
  simp only [freeAll, freeVoice_arp]

@[simp] theorem ctrlAudio_arp (e : Engine) (r : Reg) (b : Byte) : (ctrlAudio e r b).vm.arp = e.vm.arp := by
  cases r with
  | voice v r => cases r <;> rfl
  | _ => rfl

@[simp] theorem ctrlModulation_vm (e : Engine) (r : Reg) (b : Byte) : (ctrlModulation e r b).vm = e.vm := by
  cases r <;> rfl

@[simp] theorem ctrlKeyMode_arp (e : Engine) (m : KeyMode) : (ctrlKeyMode e m).vm.arp = e.vm.arp := by
  simp only [ctrlKeyMode]; split
  · rfl
  · exact freeAll_arp e

@[simp] theorem ctrlManager_arp (e : Engine) (idx : Nat) (val : BitVec 14) : (ctrlManager e idx val).vm.arp = e.vm.arp := by
  unfold ctrlManager; split
  case h_1 => exact ctrlKeyMode_arp ..
  case h_20 => split <;> rfl
  all_goals rfl

@[simp] theorem ctrlEffect_arp (e : Engine) (idx : Nat) (val : BitVec 14) : (ctrlEffect e idx val).vm.arp = e.vm.arp := by
  unfold ctrlEffect; split
  · split
    · exact ctrlAudio_arp ..
    · rfl
  · split
    · split
      · rw [ctrlModulation_vm]
      · rfl
    · exact ctrlManager_arp ..

theorem EngineStep.arp_length {k : Cfg} {e e' : Engine} (h : EngineStep k e e') : e'.vm.arp.length = e.vm.arp.length := by
  cases h with
  | noteOn key vel => rfl
  | noteOff key => rfl
  | ctrlChange idx val => rw [ctrlEffect_arp]
  | clk => exact runBlock_arp_length k e

theorem Effect.capacities {s t : State} (h : Effect s t) :
    t.pool.length = s.pool.length ∧ t.vm.arp.length = s.vm.arp.length := by
  cases h with
  | fail code v => exact ⟨rfl, rfl⟩
  | slot v hx h => exact ⟨List.length_set, rfl⟩
  | engine r hp h => exact ⟨by simp, h.arp_length⟩

theorem step_capacities {s t : State} (h : step s = .next t) :
    t.pool.length = s.pool.length ∧ t.vm.arp.length = s.vm.arp.length := by
  obtain ⟨-, hpool, hvm⟩ | ⟨rest, he⟩ := step_effect h
  · rw [hpool, hvm]; exact ⟨rfl, rfl⟩
  · exact he.capacities

/-- A context's move keeps the list of moves it is taken from. -/
theorem State.accept_moves (s : State) (c : Context) : (s.accept c).agents.moves = s.agents.moves := by
  unfold State.accept; split
  · rfl
  · exact Agents.setIssued_moves ..

/-- A word performed keeps the instantiation, the words behind it and the contexts (R70, R47). -/
theorem perform_keeps {w : CmdWord} {s t : State} (h : perform w s = .next t) :
    t.cfg = s.cfg ∧ t.port = s.port ∧ t.agents = s.agents := by
  obtain ⟨u, hcfg, hu⟩ := perform_portBlind w s
  obtain rfl : { u with port := s.port, agents := s.agents } = t := by
    have := (hu s.port s.agents).symm.trans h
    cases this; rfl
  exact ⟨hcfg, rfl, rfl⟩

/-- Settles O8: the capacities by the effects of a word, the rest by the three cases of a step. -/
theorem configurationIsFixed : Obligations.ConfigurationIsFixed := by
  intro s t h
  obtain ⟨hpool, harp⟩ := step_capacities h
  suffices hrest : t.cfg = s.cfg ∧ t.agents.moves = s.agents.moves.tail ∧ (s.agents.next = .perform →
      t.port = s.port.tail ∧ t.agents.control = s.agents.control ∧ t.agents.render = s.agents.render) by
    obtain ⟨hcfg, hmoves, hcore⟩ := hrest
    exact ⟨hcfg, hpool, harp, hmoves, hcore⟩
  obtain ⟨c, hn, heq⟩ | ⟨-, hp, heq⟩ | ⟨w, rest, -, hp, heq⟩ := step_cases s
  · obtain rfl : s.advance.accept c = t := by rw [heq] at h; cases h; rfl
    exact ⟨by simp, by rw [State.accept_moves]; rfl, fun hc => by rw [hn] at hc; cases hc⟩
  · obtain rfl : s.advance = t := by rw [heq] at h; cases h; rfl
    exact ⟨rfl, rfl, fun _ => ⟨by rw [State.advance_port, hp]; rfl, rfl, rfl⟩⟩
  · obtain ⟨hcfg, hport, hagents⟩ := perform_keeps (heq.symm.trans h)
    rw [hcfg, hport, hagents, hp]
    exact ⟨rfl, rfl, fun _ => ⟨rfl, rfl, rfl⟩⟩

end Sys2Proof.Machine
end

section
/-! PROOFS. Every chip stays well-formed: under a register write, a setter and a tick. -/

namespace Sys2Proof.Machine

open Sys2Proof

/-! ### The conditioning of a parameter (R162) and the stored integers (R155, R160) -/

theorem unpack_of_not_finite {p : F32} (h : isFinite p = false) : unpack p = .nan ∨ ∃ n, unpack p = .inf n := by
  have he : f32Exp p = 255 := by simpa [isFinite] using h
  rw [unpack, if_pos he]
  split
  · exact .inr ⟨_, rfl⟩
  · exact .inl rfl

/-- A pattern above a finite bound and not above another is finite. -/
theorem isFinite_of_between {p lo hi : F32} (hlo : isFinite lo = true) (hhi : isFinite hi = true) (h1 : flt lo p = true)
    (h2 : flt hi p = false) : isFinite p = true := by
  by_contra hp
  obtain ⟨n1, m1, e1, hl, -⟩ := unpack_of_finite hlo
  obtain ⟨n2, m2, e2, hh, -⟩ := unpack_of_finite hhi
  obtain hu | ⟨n, hu⟩ := unpack_of_not_finite (by simpa using hp)
  · simp [flt, hl, hu] at h1
  · simp only [flt, hl, hu] at h1
    simp only [flt, hh, hu] at h2
    rw [h1] at h2; cases h2

theorem inRange_iff {lo hi x : F32} (hlo : isFinite lo = true) (hhi : isFinite hi = true) :
    inRange lo hi x = true ↔ isFinite x = true ∧ f32Value lo ≤ f32Value x ∧ f32Value x ≤ f32Value hi := by
  rw [inRange, Bool.and_eq_true, Bool.and_eq_true, and_assoc]
  refine and_congr_right fun hx => ?_
  rw [fle_eq_decide hlo hx, fle_eq_decide hx hhi, decide_eq_true_eq, decide_eq_true_eq]

/-- A conditioned parameter is finite and lies between its bounds (R162). -/
theorem inRange_clampf (p : F32) {lo hi : F32} (hlo : isFinite lo = true) (hhi : isFinite hi = true)
    (hle : fle lo hi = true) : inRange lo hi (clampf p lo hi) = true := by
  have hle' : f32Value lo ≤ f32Value hi := by simpa [fle_eq_decide hlo hhi] using hle
  rw [inRange_iff hlo hhi, clampf]
  cases h1 : flt lo p with
  | false => exact ⟨hlo, le_rfl, hle'⟩
  | true =>
    cases h2 : flt hi p with
    | true => exact ⟨hhi, hle', le_rfl⟩
    | false =>
      have hp := isFinite_of_between hlo hhi h1 h2
      rw [flt_eq_decide hlo hp] at h1
      rw [flt_eq_decide hhi hp] at h2
      exact ⟨hp, (of_decide_eq_true h1).le, not_lt.1 (of_decide_eq_false h2)⟩

/-- The whole part of a value that is not negative (R155, R160). -/
theorem floorScaled_eq_floor {x : F32} {m : ℕ} {e : ℤ} (h : unpack x = .fin false m e) (k : ℕ) :
    (floorScaled x k : ℤ) = ⌊f32Value x * 2 ^ k⌋ := by
  have hv : f32Value x * 2 ^ k = m * 2 ^ (e + k) := by
    rw [f32Value_of_unpack h, zpow_add₀ (by norm_num), zpow_natCast, ← mul_assoc]; rfl
  rw [hv, floorScaled, h]
  simp only
  cases e + (k : ℤ) with
  | ofNat n =>
    have : (m : ℚ) * 2 ^ (Int.ofNat n) = ((m * 2 ^ n : ℕ) : ℤ) := by
      rw [Int.ofNat_eq_natCast, zpow_natCast]; push_cast; rfl
    rw [this, Int.floor_intCast]
  | negSucc n =>
    have : (m : ℚ) * 2 ^ (Int.negSucc n) = (m : ℚ) / ((2 ^ (n + 1) : ℕ) : ℚ) := by
      rw [zpow_negSucc, div_eq_mul_inv]; push_cast; rfl
    rw [this, Rat.floor_natCast_div_natCast]; rfl

/-- A value above zero has a clear sign. -/
theorem unpack_of_pos {x : F32} (hx : isFinite x = true) (h : 0 < f32Value x) : ∃ m e, unpack x = .fin false m e := by
  obtain ⟨n, m, e, hu, -⟩ := unpack_of_finite hx
  cases n with
  | false => exact ⟨m, e, hu⟩
  | true =>
    rw [f32Value_of_unpack hu] at h
    have : (0 : ℚ) ≤ m * 2 ^ e := by positivity
    rw [if_pos rfl, neg_mul] at h
    linarith

theorem f32Value_f1 : f32Value f1 = 1 := by
  rw [f32Value_of_unpack (show unpack f1 = .fin false (2 ^ 23) (-23) by decide)]; norm_num

theorem f32Value_f16777215 : f32Value f16777215 = 16777215 := by
  rw [f32Value_of_unpack (show unpack f16777215 = .fin false 16777215 0 by decide)]; norm_num

/-- The stored clock rate is at least 1 (R29, R160). -/
theorem one_le_clkHzOf (p : F32) : 1 ≤ (clkHzOf p).toNat := by
  obtain ⟨hfin, hlo, hhi⟩ := (inRange_iff (by decide) (by decide)).1 (inRange_clampf p (by decide) (by decide)
    (by decide : fle f1 f16777215 = true))
  rw [f32Value_f1] at hlo
  rw [f32Value_f16777215] at hhi
  obtain ⟨m, e, hu⟩ := unpack_of_pos hfin (by linarith)
  have hfloor := floorScaled_eq_floor hu 0
  rw [pow_zero, mul_one] at hfloor
  have h1 : 1 ≤ ⌊f32Value (clampf p f1 f16777215)⌋ := Int.le_floor.2 (by exact_mod_cast hlo)
  have h2 : ⌊f32Value (clampf p f1 f16777215)⌋ ≤ 16777215 := Int.floor_le_iff.2 (by push_cast; linarith)
  rw [clkHzOf, BitVec.toNat_ofNat]
  omega

/-! ### Registers and parameters -/

theorem ParamsStep.wf {p q : AnalogParams} (h : ParamsStep p q) (hp : ParamsWf p) : ParamsWf q := by
  obtain ⟨hgain, hleak, hsnr, hdc, hpole, hclk⟩ := hp
  cases h with
  | gain x => exact ⟨inRange_clampf x (by decide) (by decide) (by decide), hleak, hsnr, hdc, hpole, hclk⟩
  | detune x => exact ⟨hgain, hleak, hsnr, hdc, hpole, hclk⟩
  | leak x => exact ⟨hgain, inRange_clampf x (by decide) (by decide) (by decide), hsnr, hdc, hpole, hclk⟩
  | snr x => exact ⟨hgain, hleak, inRange_clampf x (by decide) (by decide) (by decide), hdc, hpole, hclk⟩
  | dcbias x => exact ⟨hgain, hleak, hsnr, inRange_clampf x (by decide) (by decide) (by decide), hpole, hclk⟩
  | polemix x => exact ⟨hgain, hleak, hsnr, hdc, inRange_clampf x (by decide) (by decide) (by decide), hclk⟩
  | clkHz x => exact ⟨hgain, hleak, hsnr, hdc, hpole, one_le_clkHzOf x⟩

/-- The last addressable register is `CONTROL`, and the tap `ENV3` stands before it (R23). -/
theorem Reg.addr_top (r : Reg) : r.addr ≤ 0x1D ∧ (r.addr = 0x1C → r = .env3) ∧ (r.addr = 0x1D → r = .control) := by
  cases r with
  | voice v r => cases v <;> cases r <;> decide
  | _ => decide

theorem ChipWf.setReg {c : Chip} (h : ChipWf c) {r : Reg} {d : Byte} (henv : r ≠ .env3)
    (hcontrol : r = .control → d.msb = false) : ChipWf (c.setReg r d) := by
  obtain ⟨hp, h1, h2, h3, hreset, h1E, h1F, htap⟩ := h
  obtain ⟨hle, hE, hC⟩ := r.addr_top
  refine ⟨hp, h1, h2, h3, ?_, ?_, ?_, ?_⟩
  · simp only [Chip.setReg_regs, Vector.getElem_set]
    split
    · next ha => exact hcontrol (hC ha)
    · exact hreset
  · simp only [Chip.setReg_regs, Vector.getElem_set, if_neg (show r.addr ≠ 0x1E by omega), h1E]
  · simp only [Chip.setReg_regs, Vector.getElem_set, if_neg (show r.addr ≠ 0x1F by omega), h1F]
  · simp only [Chip.setReg_regs, Vector.getElem_set, if_neg (fun ha => henv (hE ha)), htap, Chip.setReg_voices]

theorem voiceWf_voiceReset (v : VoiceId) : VoiceWf (voiceReset v) := by
  cases v <;> decide

/-- A chip after `ChipReset` is well-formed when its analogue parameters are (R148). -/
theorem chipWf_chipResetWith {p : AnalogParams} (hp : ParamsWf p) : ChipWf (chipResetWith p) :=
  ⟨hp, voiceWf_voiceReset .v1, voiceWf_voiceReset .v2, voiceWf_voiceReset .v3,
    by rw [show (chipResetWith p).regs[0x1D] = 0#8 from rfl]; decide, rfl, rfl, rfl⟩

theorem chipWf_chipCreated : ChipWf chipCreated := chipWf_chipResetWith (by decide)

theorem msb_and_7F (d : Byte) : (d &&& 0x7F#8).msb = false := by
  rw [BitVec.msb_and, show (0x7F#8).msb = false by decide, Bool.and_false]

/-- A register write keeps a chip well-formed: the tap `ENV3` discards its byte and `CONTROL` never keeps bit 7. -/
theorem ChipWf.chipWrite {c : Chip} (h : ChipWf c) (r : Reg) (d : Byte) : ChipWf (chipWrite c r d) := by
  cases r with
  | osc3 => exact h
  | env3 => exact h
  | control =>
    cases hd : d.msb with
    | false =>
      rw [chipWrite_control_of_clear c hd]
      exact h.setReg (by decide) fun _ => hd
    | true =>
      rw [chipWrite_control_of_reset c hd]
      obtain ⟨hp, -⟩ := h
      exact (chipWf_chipResetWith hp).setReg (by decide) fun _ => msb_and_7F d
  | _ => exact h.setReg (by simp) (by simp)

/-! ### The tick -/

theorem noiseShift_bit_zero (n : BitVec 24) : (noiseShift n).getLsbD 0 = noiseFeedback n := by
  rw [noiseShift, BitVec.getLsbD_append]; simp

theorem noiseShift_bit_succ (n : BitVec 24) {i : Nat} (hi : i < 23) : (noiseShift n).getLsbD (i + 1) = n.getLsbD i := by
  rw [noiseShift, BitVec.getLsbD_append]; simp [hi]

/-- The noise register never falls to 0: a shift that gives 0 needs 23 zero bits and, by the feedback, the 24th (R222). -/
theorem noiseShift_ne_zero {n : BitVec 24} (h : n ≠ 0#24) : noiseShift n ≠ 0#24 := by
  intro hz
  have hbit (i : Nat) : (noiseShift n).getLsbD i = false := by rw [hz]; exact BitVec.getLsbD_zero
  have hfb : noiseFeedback n = false := by rw [← noiseShift_bit_zero]; exact hbit 0
  have hlow (i : Nat) (hi : i < 23) : n.getLsbD i = false := by rw [← noiseShift_bit_succ n hi]; exact hbit (i + 1)
  refine h (BitVec.eq_of_getLsbD_eq fun i hi => ?_)
  rw [BitVec.getLsbD_zero]
  obtain hlt | rfl : i < 23 ∨ i = 23 := by omega
  · exact hlow i hlt
  · rw [noiseFeedback, hlow 22 (by omega), hlow 21 (by omega), hlow 16 (by omega)] at hfb
    simpa using hfb

theorem clampInt_bounds {v lo hi : Int} (h : lo ≤ hi) : lo ≤ clampInt v lo hi ∧ clampInt v lo hi ≤ hi := by
  unfold clampInt; split
  · exact ⟨le_rfl, h⟩
  · split <;> omega

theorem sumTerm_bounds (sel : Bool) (w : BitVec 12) : -2048 ≤ sumTerm sel w ∧ sumTerm sel w ≤ 2047 := by
  have := w.isLt
  unfold sumTerm; split <;> omega

/-- The combined waveform fits its range in both mixing policies, with ring modulation or without (R27). -/
theorem centreValue_bounds (c : Chip) (v : VoiceId) : -8192 ≤ centreValue c v ∧ centreValue c v ≤ 8191 := by
  unfold centreValue
  split
  · split
    · exact clampInt_bounds (by norm_num)
    · have := sumTerm_bounds (flagNoise c v) (c.voices.get v).nout
      have := sumTerm_bounds (flagPulse c v) (pulse12 (c.voices.get v).phaseP (pw12 c v))
      have := sumTerm_bounds (flagRamp c v) (ramp12 (c.voices.get v).phase)
      have := sumTerm_bounds (flagTri c v) (tri12 (c.voices.get v).phaseT ((c.voices.get v).phaseT.getLsbD 23))
      simp only [sumMulti]
      omega
  · have := (waveAnd c v).isLt
    omega

/-- A voice is well-formed after a tick when its noise register was not 0 before. -/
theorem voiceWf_tick (k : Cfg) {c : Chip} {v : VoiceId} (h : (c.voices.get v).n1 ≠ 0#24) :
    VoiceWf ((tick k c).voices.get v) := by
  obtain ⟨hn1, -, -⟩ := tick_noise k c v
  obtain ⟨hcentre, hheld⟩ := tick_centre k c v
  obtain ⟨hlo, hhi⟩ := centreValue_bounds (waveInput k c) v
  have hint : ((tick k c).voices.get v).centre.toInt = centreValue (waveInput k c) v := by
    rw [hcentre, BitVec.toInt_ofInt, Int.bmod_eq_of_le (by omega) (by omega)]
  refine ⟨?_, hheld, ?_, ?_, tick_d k c v⟩
  · rw [hn1]; exact noiseShift_ne_zero h
  · rw [hint]; exact hlo
  · rw [hint]; exact hhi

theorem ChipWf.tick (k : Cfg) {c : Chip} (h : ChipWf c) : ChipWf (tick k c) := by
  obtain ⟨hp, ⟨h1, -⟩, ⟨h2, -⟩, ⟨h3, -⟩, hreset, h1E, h1F, -⟩ := h
  refine ⟨hp, voiceWf_tick k (v := .v1) h1, voiceWf_tick k (v := .v2) h2, voiceWf_tick k (v := .v3) h3, ?_, ?_, ?_, ?_⟩
  · rw [tick_reg_of_ne k c (by decide) (by decide) (by decide)]; exact hreset
  · rw [tick_reg_of_ne k c (by decide) (by decide) (by decide)]; exact h1E
  · rw [tick_reg_of_ne k c (by decide) (by decide) (by decide)]; exact h1F
  · rw [tick_regs]; exact Vector.getElem_set_self _

/-- What a WR or IO command leaves in a slot is well-formed. -/
theorem SlotStep.wf {k : Cfg} {x y : Option Chip} (h : SlotStep k x y) (hx : ∀ c, x = some c → ChipWf c) :
    ∀ c, y = some c → ChipWf c := by
  intro c' hc'
  cases h with
  | write c r d => cases hc'; exact (hx c rfl).chipWrite r d
  | params c hp => cases hc'; obtain ⟨hpar, hrest⟩ := hx c rfl; exact ⟨hp.wf hpar, hrest⟩
  | tick c => cases hc'; exact (hx c rfl).tick k
  | create => cases hc'; exact chipWf_chipCreated
  | destroy c => cases hc'

end Sys2Proof.Machine
end

section
/-! PROOFS. The VoiceManager and its pair stay well-formed under the operations of a block. Inside a block a note can be
owed (R315): the gate of voice 2 is then closed although the voice holds a key, and the sub-block that follows repairs
it. `ManagerOk` is the invariant with that exception. -/

namespace Sys2Proof.Machine

open Sys2Proof

/-! ### The invariant of a block -/

/-- The transposition and the glide times of a voice lie in their ranges (R42, R285, R287). -/
def PolicyBounds (p : PolicyVoice) : Prop :=
  -24 ≤ p.transpose.toInt ∧ p.transpose.toInt ≤ 24
    ∧ p.glideN.toNat ≤ 262128 ∧ p.glideN.toNat % 16 = 0 ∧ p.gleft.toNat ≤ 262128

/-- The gate shadow of a voice is set exactly when a key is assigned (R279). -/
def GateMatches (p : PolicyVoice) : Prop := p.actrl.getLsbD 0 = p.vkey.isSome

theorem policyWf_iff {p : PolicyVoice} : PolicyWf p ↔ GateMatches p ∧ PolicyBounds p := Iff.rfl

/-- What the VoiceManager keeps inside a block: while a note is owed the gate of voice 2 is excused, an arpeggiator key
is there to be played and the mode has an arpeggiator. -/
structure ManagerOk (m : VoiceManager) : Prop where
  bounds : ∀ v, PolicyBounds (m.voice v)
  gate : ∀ v, (v = .v2 → m.arpPending = false) → GateMatches (m.voice v)
  arpLen : m.arpLen ≤ m.arp.length
  arpIdx : m.arpIdx < m.arp.length
  owed : m.arpPending = true → m.arpKey.isSome = true ∧ hasArp m.keymode = true

/-- Between commands, when no note is owed, the invariant of a block is the one of the machine. -/
theorem managerWf_iff {m : VoiceManager} : ManagerWf m ↔ ManagerOk m ∧ m.arpPending = false := by
  constructor
  · rintro ⟨⟨hg1, hb1⟩, ⟨hg2, hb2⟩, ⟨hg3, hb3⟩, hlen, hidx, hp⟩
    refine ⟨⟨fun v => ?_, fun v _ => ?_, hlen, hidx, fun h => by rw [hp] at h; cases h⟩, hp⟩
    · cases v with
      | v1 => exact hb1
      | v2 => exact hb2
      | v3 => exact hb3
    · cases v with
      | v1 => exact hg1
      | v2 => exact hg2
      | v3 => exact hg3
  · rintro ⟨h, hp⟩
    have hv (v : VoiceId) : PolicyWf (m.voice v) := ⟨h.gate v fun _ => hp, h.bounds v⟩
    exact ⟨hv .v1, hv .v2, hv .v3, h.arpLen, h.arpIdx, hp⟩

theorem ManagerOk.setVoice {m : VoiceManager} (h : ManagerOk m) {v : VoiceId} {p : PolicyVoice} (hg : GateMatches p)
    (hb : PolicyBounds p) : ManagerOk (m.setVoice v p) := by
  refine ⟨fun u => ?_, fun u hu => ?_, h.arpLen, h.arpIdx, h.owed⟩
  · rw [VoiceManager.voice_setVoice]; split
    · exact hb
    · exact h.bounds u
  · rw [VoiceManager.voice_setVoice]; split
    · exact hg
    · exact h.gate u hu

/-- The invariant of a block for the engine. -/
structure EngineOk (e : Engine) : Prop where
  audio : ChipWf e.audio
  modulation : ChipWf e.modulation
  manager : ManagerOk e.vm

theorem EngineOk.setVoice {e : Engine} (h : EngineOk e) {v : VoiceId} {p : PolicyVoice} (hg : GateMatches p)
    (hb : PolicyBounds p) : EngineOk (e.setVoice v p) :=
  ⟨h.audio, h.modulation, h.manager.setVoice hg hb⟩

theorem EngineOk.writeAudio {e : Engine} (h : EngineOk e) (r : Reg) (d : Byte) : EngineOk (e.writeAudio r d) :=
  ⟨h.audio.chipWrite r d, h.modulation, h.manager⟩

/-! ### `Free`, `Assign` and the scan (R270 to R278) -/

theorem EngineOk.setKnown {e : Engine} (h : EngineOk e) (k : Key) (b : Bool) : EngineOk (e.setKnown k b) :=
  ⟨h.audio, h.modulation, h.manager.bounds, h.manager.gate, h.manager.arpLen, h.manager.arpIdx, h.manager.owed⟩

theorem EngineOk.freeVoice {e : Engine} (h : EngineOk e) (v : VoiceId) : EngineOk (freeVoice e v) := by
  refine ⟨?_, ?_, ?_⟩
  · rw [freeVoice_audio]; split
    · exact h.audio.chipWrite (.voice v .ctrl) _
    · exact h.audio
  · rw [freeVoice_modulation]; exact h.modulation
  · rw [freeVoice_vm]; exact h.manager.setVoice (gateClear_bit _) (h.manager.bounds v)

theorem policyBounds_assignedVoice (c : Cfg) {p : PolicyVoice} (h : PolicyBounds p) (k : Key) (vel : Velocity) (f : F32) :
    PolicyBounds (assignedVoice c p k vel f) := by
  obtain ⟨hlo, hhi, hglide, h16, -⟩ := h
  unfold assignedVoice; split
  · exact ⟨hlo, hhi, hglide, h16, by simp⟩
  · exact ⟨hlo, hhi, hglide, h16, hglide⟩

theorem EngineOk.assignVoice (c : Cfg) {e : Engine} (h : EngineOk e) (v : VoiceId) (k : Key) :
    EngineOk (assignVoice c e v k) := by
  refine ⟨?_, ?_, ?_⟩
  · rw [assignVoice_audio]; split
    · exact h.audio
    · exact h.audio.chipWrite (.voice v .ctrl) _
  · rw [assignVoice_modulation]; exact h.modulation
  · rw [assignVoice_vm]
    have hg : GateMatches { assignedVoice c (e.vm.voice v) k (e.vm.velOf k) (targetFreq e v k) with
        actrl := gateSet (e.vm.voice v).actrl } := by
      rw [GateMatches, gateSet_bit, assignedVoice_vkey]; rfl
    obtain ⟨hb, hgate, hlen, hidx, howed⟩ :=
      h.manager.setVoice (v := v) hg (policyBounds_assignedVoice c (h.manager.bounds v) _ _ _)
    exact ⟨hb, hgate, hlen, hidx, howed⟩

theorem EngineOk.scan (c : Cfg) {e : Engine} (h : EngineOk e) : EngineOk (scan c e) :=
  scan_induction (fun _ k b h => h.setKnown k b) (fun _ v h => h.freeVoice v) (fun _ v k h => h.assignVoice c v k) h

@[simp] theorem freeVoice_arpPending (e : Engine) (v : VoiceId) : (freeVoice e v).vm.arpPending = e.vm.arpPending := by
  rw [freeVoice_vm]; rfl

@[simp] theorem assignVoice_arpPending (c : Cfg) (e : Engine) (v : VoiceId) (k : Key) :
    (assignVoice c e v k).vm.arpPending = e.vm.arpPending := by
  rw [assignVoice_vm]; rfl

@[simp] theorem scan_arpPending (c : Cfg) (e : Engine) : (scan c e).vm.arpPending = e.vm.arpPending :=
  scan_induction (P := fun e' => e'.vm.arpPending = e.vm.arpPending) (fun _ _ _ h => h)
    (fun _ _ h => by rw [freeVoice_arpPending]; exact h) (fun _ _ _ h => by rw [assignVoice_arpPending]; exact h) rfl

/-! ### The arpeggiator (R310 to R315) -/

theorem ManagerOk.rebuildArp {m : VoiceManager} (h : ManagerOk m) : ManagerOk (rebuildArp m) := by
  refine ⟨h.bounds, h.gate, ?_, ?_, h.owed⟩
  · rw [rebuildArp_arp_length]
    exact (List.length_take_le ..)
  · rw [rebuildArp_arp_length]; exact h.arpIdx

theorem EngineOk.arpEmpty {e : Engine} (h : EngineOk e) (hp : e.vm.arpPending = false) : EngineOk (arpEmpty e) := by
  have rest {e' : Engine} (h' : EngineOk e') (hp' : e'.vm.arpPending = false) : EngineOk
      { e' with vm := { e'.vm with arpKey := none, arpIdx := 0, arpCnt := 0#32, arpPending := false } } :=
    ⟨h'.audio, h'.modulation, h'.manager.bounds, fun v _ => h'.manager.gate v fun _ => hp', h'.manager.arpLen,
      Nat.zero_lt_of_lt h'.manager.arpIdx, fun hc => nomatch hc⟩
  simp only [Machine.arpEmpty]; split
  · exact rest h hp
  · exact rest (h.freeVoice .v2) (by rw [freeVoice_arpPending, hp])

@[simp] theorem rotateWave_bit (b : Byte) : (rotateWave b).getLsbD 0 = b.getLsbD 0 := by
  revert b; unfold rotateWave; decide

theorem EngineOk.waveScan {e : Engine} (h : EngineOk e) (hp : e.vm.arpPending = false) : EngineOk (waveScan e) := by
  have hg : GateMatches { e.vm.voice .v2 with actrl := rotateWave (e.vm.voice .v2).actrl } := by
    rw [GateMatches, rotateWave_bit]; exact h.manager.gate .v2 fun _ => hp
  exact (h.setVoice hg (h.manager.bounds .v2)).writeAudio _ _

/-- The first half of a retrigger (R315): the gate of voice 2 closes, whether or not it was open, and a note is owed. -/
theorem arpPlay_of_retrigger (c : Cfg) {e : Engine} (k : Key)
    (h : (e.vm.arpRetrig && (e.vm.voice .v2).vkey != none) = true) :
    arpPlay c e k =
      { vm := { e.vm.setVoice .v2 { e.vm.voice .v2 with actrl := gateClear (e.vm.voice .v2).actrl } with
                  arpPending := true }
        audio := if (e.vm.voice .v2).actrl.getLsbD 0 then
            e.audio.setReg (.voice .v2 .ctrl) (gateClear (e.vm.voice .v2).actrl)
          else e.audio
        modulation := e.modulation } := by
  simp only [arpPlay, h, if_true]
  split
  · rfl
  · next hg => rw [gateClear_of_closed (by simpa using hg)]; rfl

theorem EngineOk.arpPlay (c : Cfg) {e : Engine} (h : EngineOk e) (hkey : e.vm.arpKey.isSome = true)
    (hmode : hasArp e.vm.keymode = true) (k : Key) : EngineOk (arpPlay c e k) := by
  by_cases hr : (e.vm.arpRetrig && (e.vm.voice .v2).vkey != none) = true
  · rw [arpPlay_of_retrigger c k hr]
    refine ⟨?_, h.modulation, fun v => ?_, fun v hv => ?_, h.manager.arpLen, h.manager.arpIdx, fun _ => ⟨hkey, hmode⟩⟩
    · dsimp only; split
      · exact h.audio.chipWrite (.voice .v2 .ctrl) _
      · exact h.audio
    · cases v with
      | v1 => exact h.manager.bounds .v1
      | v2 => exact h.manager.bounds .v2
      | v3 => exact h.manager.bounds .v3
    · cases v with
      | v1 => exact h.manager.gate .v1 fun hc => nomatch hc
      | v2 => exact nomatch hv rfl
      | v3 => exact h.manager.gate .v3 fun hc => nomatch hc
  · rw [Machine.arpPlay, if_neg hr]
    exact h.assignVoice c .v2 k

/-- The next index lies in the part of the table that is used (R313). -/
theorem nextArpIdx_lt {m : VoiceManager} (h : m.arpLen ≠ 0) : nextArpIdx m < m.arpLen := by
  unfold nextArpIdx; split
  · omega
  · exact Nat.mod_lt _ (Nat.pos_of_ne_zero h)

theorem EngineOk.arpStep (c : Cfg) {e : Engine} (h : EngineOk e) (hp : e.vm.arpPending = false) (hlen : e.vm.arpLen ≠ 0)
    (hmode : hasArp e.vm.keymode = true) : EngineOk (arpStep c e) := by
  have h1 : EngineOk { e with vm := { e.vm with
      arpIdx := nextArpIdx e.vm, arpKey := some (e.vm.arp.getD (nextArpIdx e.vm) 0#7) } } :=
    ⟨h.audio, h.modulation, h.manager.bounds, h.manager.gate, h.manager.arpLen,
      (nextArpIdx_lt hlen).trans_le h.manager.arpLen, fun hc => by rw [hp] at hc; cases hc⟩
  simp only [Machine.arpStep]; split
  · exact (h1.waveScan hp).arpPlay c rfl hmode _
  · exact h1.arpPlay c rfl hmode _

theorem EngineOk.addArpCnt {e : Engine} (h : EngineOk e) (n : Int) : EngineOk (e.addArpCnt n) :=
  ⟨h.audio, h.modulation, h.manager.bounds, h.manager.gate, h.manager.arpLen, h.manager.arpIdx, h.manager.owed⟩

theorem EngineOk.arpUpdate (c : Cfg) {e : Engine} (h : EngineOk e) (hp : e.vm.arpPending = false) :
    EngineOk (arpUpdate c e) := by
  have h1 : EngineOk { e with vm := rebuildArp e.vm } := ⟨h.audio, h.modulation, h.manager.rebuildArp⟩
  simp only [Machine.arpUpdate, arpDue]
  split
  · next hmode =>
    split
    · exact h1.arpEmpty hp
    · next hlen =>
      refine EngineOk.addArpCnt ?_ _
      split
      · exact (h1.arpStep c hp hlen hmode).addArpCnt _
      · exact h1
  · exact h

/-- The owed note is played and its gate opens again; afterwards no note is owed (R315). -/
theorem EngineOk.arpOwed (c : Cfg) {e : Engine} (h : EngineOk e) :
    EngineOk (arpOwed c e) ∧ (arpOwed c e).vm.arpPending = false := by
  obtain ⟨hp, heq⟩ | ⟨hp, hkey, -⟩ | ⟨k, -, -, heq⟩ := arpOwed_cases c e
  · rw [heq]; exact ⟨h, hp⟩
  · obtain ⟨hsome, -⟩ := h.manager.owed hp
    rw [hkey] at hsome; cases hsome
  · have ha := h.assignVoice c .v2 k
    rw [heq]
    refine ⟨⟨ha.audio, ha.modulation, ha.manager.bounds, fun v _ => ?_, ha.manager.arpLen, ha.manager.arpIdx,
      fun hc => nomatch hc⟩, rfl⟩
    by_cases hv : v = .v2
    · subst hv
      show GateMatches ((Machine.assignVoice c e .v2 k).vm.voice .v2)
      rw [assignVoice_vm, GateMatches]
      show (gateSet (e.vm.voice .v2).actrl).getLsbD 0 = _
      rw [gateSet_bit]
      exact congrArg Option.isSome (assignedVoice_vkey c (e.vm.voice .v2) k _ _).symm
    · exact ha.manager.gate v fun hc => absurd hc hv

/-! ### The ticks and the routes of a block (R265) -/

theorem policyBounds_glideVoice {p : PolicyVoice} (h : PolicyBounds p) : PolicyBounds (glideVoice p) := by
  obtain ⟨hlo, hhi, hglide, h16, hleft⟩ := h
  unfold glideVoice; split
  · exact ⟨hlo, hhi, hglide, h16, hleft⟩
  · next hne =>
    refine ⟨hlo, hhi, hglide, h16, ?_⟩
    have : p.gleft.toNat ≠ 0 := fun hz => hne (BitVec.eq_of_toNat_eq hz)
    rw [BitVec.toNat_sub, show (1#32).toNat = 1 from rfl]
    omega

/-- A glide step changes neither the key of a voice nor its gate shadow (R295). -/
theorem glideVoice_keeps (p : PolicyVoice) : (glideVoice p).vkey = p.vkey ∧ (glideVoice p).actrl = p.actrl := by
  unfold glideVoice; split <;> exact ⟨rfl, rfl⟩

theorem glideStep_voice (m : VoiceManager) (v : VoiceId) : (glideStep m).voice v = glideVoice (m.voice v) :=
  PerVoice.get_mapVoice _ _ _

theorem ManagerOk.glideStep {m : VoiceManager} (h : ManagerOk m) : ManagerOk (glideStep m) := by
  refine ⟨fun v => ?_, fun v hv => ?_, h.arpLen, h.arpIdx, h.owed⟩
  · rw [glideStep_voice]; exact policyBounds_glideVoice (h.bounds v)
  · obtain ⟨hkey, hactrl⟩ := glideVoice_keeps (m.voice v)
    rw [glideStep_voice, GateMatches, hkey, hactrl]; exact h.gate v hv

theorem EngineOk.clkTick (c : Cfg) {e : Engine} (h : EngineOk e) : EngineOk (clkTick c e) :=
  ⟨h.audio.tick c, h.modulation.tick c, h.manager.glideStep⟩

theorem ChipWf.writeVoiceOut {c : Chip} (h : ChipWf c) (m : VoiceManager) (lfo env : F32) (v : VoiceId) :
    ChipWf (writeVoiceOut m lfo env c v) :=
  (((h.chipWrite _ _).chipWrite _ _).chipWrite _ _).chipWrite _ _

theorem ChipWf.writeCutoffOut {c : Chip} (h : ChipWf c) (m : VoiceManager) (lfo env : F32) :
    ChipWf (writeCutoffOut m lfo env c) :=
  (h.chipWrite _ _).chipWrite _ _

theorem EngineOk.evalRoutes {e : Engine} (h : EngineOk e) : EngineOk (evalRoutes e) := by
  refine ⟨?_, by rw [evalRoutes_modulation]; exact h.modulation, by rw [evalRoutes_vm]; exact h.manager⟩
  unfold Machine.evalRoutes
  exact (((h.audio.writeVoiceOut _ _ _ .v1).writeVoiceOut _ _ _ .v2).writeVoiceOut _ _ _ .v3).writeCutoffOut _ _ _

theorem EngineOk.subBlock (c : Cfg) {e : Engine} (h : EngineOk e) :
    EngineOk (subBlock c e).1 ∧ (subBlock c e).1.vm.arpPending = false :=
  (clkTicks_induction (fun _ h => h.clkTick c) subblock h.evalRoutes).arpOwed c

/-- A legal block has a sub-block, so no note is owed after it. -/
theorem EngineOk.runBlock {c : Cfg} (hc : c.wf) {e : Engine} (h : EngineOk e) (hp : e.vm.arpPending = false) :
    EngineOk (runBlock c e).1 ∧ (runBlock c e).1.vm.arpPending = false := by
  obtain ⟨-, h16, -⟩ := hc
  obtain ⟨n, hn⟩ : ∃ n, c.blockSize / Machine.subblock = n + 1 :=
    Nat.exists_eq_add_one.2 (Nat.div_pos h16 (by decide))
  have h1 : EngineOk (Machine.arpUpdate c (Machine.scan c e)) :=
    (h.scan c).arpUpdate c (by rw [scan_arpPending, hp])
  rw [Machine.runBlock, hn]
  exact subBlocks_induction (P := fun e' => EngineOk e' ∧ e'.vm.arpPending = false) (fun _ h => h.1.subBlock c) n
    (h1.subBlock c)

end Sys2Proof.Machine
end

section
/-! PROOFS. The invariant of assignment in Poly1 and Poly2 (R279) through the scan and the block. -/

namespace Sys2Proof.Machine

open Sys2Proof

/-- An assigned key is tracked, and no two voices hold the same key (R279): what `AssignmentWf` asks in Poly1 and
Poly2. -/
def KeysTracked (m : VoiceManager) : Prop :=
  (∀ v k, (m.voice v).vkey = some k → m.isKnown k = true)
    ∧ ∀ v w k, (m.voice v).vkey = some k → (m.voice w).vkey = some k → v = w

/-- Keys may be dropped, and keys no voice holds may lose their tracking. -/
theorem KeysTracked.of_subset {m m' : VoiceManager} (h : KeysTracked m)
    (hsub : ∀ v k, (m'.voice v).vkey = some k → (m.voice v).vkey = some k ∧ (m.isKnown k = true → m'.isKnown k = true)) :
    KeysTracked m' := by
  obtain ⟨hknown, hinj⟩ := h
  refine ⟨fun v k hv => ?_, fun v w k hv hw => hinj v w k (hsub v k hv).1 (hsub w k hw).1⟩
  obtain ⟨hv', himp⟩ := hsub v k hv
  exact himp (hknown v k hv')

theorem AssignmentWf.of_eq {m m' : VoiceManager} (h : AssignmentWf m) (hmode : m'.keymode = m.keymode)
    (hkey : ∀ v, (m'.voice v).vkey = (m.voice v).vkey) (hknown : ∀ k, m'.isKnown k = m.isKnown k) : AssignmentWf m' := by
  intro hm
  rw [hmode] at hm
  refine KeysTracked.of_subset (h hm) fun v k hv => ?_
  rw [← hkey v, hknown k]
  exact ⟨hv, id⟩

/-! ### The keys after `Free`, `Assign` and `Release` -/

theorem freeVoice_vkey (e : Engine) (v u : VoiceId) :
    ((freeVoice e v).vm.voice u).vkey = if u = v then none else (e.vm.voice u).vkey := by
  rw [freeVoice_vm, VoiceManager.voice_setVoice]; split <;> rfl

@[simp] theorem freeVoice_isKnown (e : Engine) (v : VoiceId) (k : Key) : (freeVoice e v).vm.isKnown k = e.vm.isKnown k := by
  rw [freeVoice_vm]; rfl

@[simp] theorem freeVoice_keymode (e : Engine) (v : VoiceId) : (freeVoice e v).vm.keymode = e.vm.keymode := by
  rw [freeVoice_vm]; rfl

theorem assignVoice_vkey (c : Cfg) (e : Engine) (v u : VoiceId) (k : Key) :
    ((assignVoice c e v k).vm.voice u).vkey = if u = v then some k else (e.vm.voice u).vkey := by
  rw [assignVoice_vm]
  show ((e.vm.setVoice v _).voice u).vkey = _
  rw [VoiceManager.voice_setVoice]; split
  · exact assignedVoice_vkey ..
  · rfl

@[simp] theorem assignVoice_isKnown (c : Cfg) (e : Engine) (v : VoiceId) (k j : Key) :
    (assignVoice c e v k).vm.isKnown j = e.vm.isKnown j := by
  rw [assignVoice_vm]; rfl

@[simp] theorem assignVoice_keymode (c : Cfg) (e : Engine) (v : VoiceId) (k : Key) :
    (assignVoice c e v k).vm.keymode = e.vm.keymode := by
  rw [assignVoice_vm]; rfl

theorem freeIfHolds_vkey (e : Engine) (k : Key) (v u : VoiceId) :
    ((freeIfHolds e k v).vm.voice u).vkey =
      if u = v ∧ (e.vm.voice u).vkey = some k then none else (e.vm.voice u).vkey := by
  unfold freeIfHolds; split
  · next h =>
    rw [freeVoice_vkey]
    by_cases hu : u = v
    · subst hu; rw [if_pos rfl, if_pos ⟨rfl, h⟩]
    · rw [if_neg hu, if_neg fun hc => hu hc.1]
  · next h =>
    rw [if_neg]
    rintro ⟨rfl, hk⟩
    exact h hk

@[simp] theorem release_keymode (e : Engine) (k : Key) : (release e k).vm.keymode = e.vm.keymode :=
  release_induction (P := fun e' => e'.vm.keymode = e.vm.keymode) (fun _ _ h => by rw [freeVoice_keymode]; exact h) k rfl

@[simp] theorem release_isKnown (e : Engine) (k j : Key) : (release e k).vm.isKnown j = e.vm.isKnown j :=
  release_induction (P := fun e' => e'.vm.isKnown j = e.vm.isKnown j) (fun _ _ h => by rw [freeVoice_isKnown]; exact h) k rfl

/-- In Poly1 and Poly2 a released key leaves every voice that held it (R274). -/
theorem release_vkey {e : Engine} (hm : e.vm.keymode = .poly1 ∨ e.vm.keymode = .poly2) (k : Key) (u : VoiceId) :
    ((release e k).vm.voice u).vkey = if (e.vm.voice u).vkey = some k then none else (e.vm.voice u).vkey := by
  have heq : release e k = freeIfHolds (freeIfHolds (freeIfHolds e k .v1) k .v2) k .v3 := by
    obtain h | h := hm <;> rw [release, h]
  rw [heq]
  cases u <;> simp [freeIfHolds_vkey]

/-! ### The scan -/

/-- The mode has a re-scan and its invariant holds: what the three passes of a scan keep in Poly1 and Poly2. -/
def PolyTracked (e : Engine) : Prop := (e.vm.keymode = .poly1 ∨ e.vm.keymode = .poly2) ∧ KeysTracked e.vm

/-- A tracked key that no voice holds may be assigned. -/
theorem KeysTracked.assignVoice (c : Cfg) {e : Engine} (h : KeysTracked e.vm) (v : VoiceId) {k : Key}
    (hknown : e.vm.isKnown k = true) (hfree : ∀ u, (e.vm.voice u).vkey ≠ some k) : KeysTracked (assignVoice c e v k).vm := by
  obtain ⟨htracked, hinj⟩ := h
  refine ⟨fun u j hu => ?_, fun u w j hu hw => ?_⟩
  · rw [assignVoice_vkey] at hu
    rw [assignVoice_isKnown]
    split at hu
    · cases hu; exact hknown
    · exact htracked u j hu
  · rw [assignVoice_vkey] at hu hw
    split at hu <;> split at hw
    · next h1 h2 => rw [h1, h2]
    · cases hu; exact absurd hw (hfree w)
    · cases hw; exact absurd hu (hfree u)
    · exact hinj u w j hu hw

theorem PolyTracked.scanRelease {e : Engine} (h : PolyTracked e) (k : Key) : PolyTracked (scanRelease e k) := by
  obtain ⟨hm, ht⟩ := h
  unfold Machine.scanRelease; split
  · refine ⟨by rw [release_keymode]; exact hm, ht.of_subset fun v j hv => ?_⟩
    rw [release_vkey (e := e.setKnown k false) hm] at hv
    split at hv
    · cases hv
    · next hne =>
      have hjk : j ≠ k := fun hc => hne (hc ▸ hv)
      refine ⟨hv, fun hj => ?_⟩
      rw [release_isKnown, Engine.setKnown_vm, VoiceManager.isKnown_setKnown, if_neg hjk]
      exact hj
  · exact ⟨hm, ht⟩

/-- In Poly1 and Poly2 a pressed key is assigned to the first free voice or to the median one (R274). -/
theorem press_of_poly (c : Cfg) {e : Engine} (hm : e.vm.keymode = .poly1 ∨ e.vm.keymode = .poly2) (k : Key) :
    press c e k = assignVoice c e (polyVoice e.vm) k := by
  obtain h | h := hm <;> rw [press, h]

theorem PolyTracked.scanPress (c : Cfg) {e : Engine} (h : PolyTracked e) (k : Key) : PolyTracked (scanPress c e k) := by
  obtain ⟨hm, ht⟩ := h
  unfold Machine.scanPress; split
  · next hp =>
    have hnew : e.vm.isKnown k = false := by simpa using (Bool.and_eq_true_iff.1 hp).2
    have ht' : KeysTracked (e.setKnown k true).vm := ht.of_subset fun v j hv => by
      refine ⟨hv, fun hj => ?_⟩
      rw [Engine.setKnown_vm, VoiceManager.isKnown_setKnown]
      split
      · rfl
      · exact hj
    rw [press_of_poly c (e := e.setKnown k true) hm]
    refine ⟨by rw [assignVoice_keymode]; exact hm, ht'.assignVoice c _ ?_ fun u hu => ?_⟩
    · rw [Engine.setKnown_vm, VoiceManager.isKnown_setKnown, if_pos rfl]
    · obtain ⟨htracked, -⟩ := ht
      rw [htracked u k hu] at hnew; cases hnew
  · exact ⟨hm, ht⟩

theorem isAssigned_of_vkey {m : VoiceManager} {v : VoiceId} {k : Key} (h : (m.voice v).vkey = some k) :
    isAssigned m k = true := by
  cases v <;> simp [isAssigned, h]

theorem PolyTracked.rescanKey (c : Cfg) {e : Engine} (h : PolyTracked e) (k : Key) : PolyTracked (rescanKey c e k) := by
  obtain ⟨hm, ht⟩ := h
  unfold Machine.rescanKey; split
  · next hk =>
    obtain ⟨hknown, hfree⟩ := Bool.and_eq_true_iff.1 hk
    split
    · refine ⟨by rw [assignVoice_keymode]; exact hm, ht.assignVoice c _ hknown fun u hu => ?_⟩
      rw [isAssigned_of_vkey hu] at hfree; cases hfree
    · exact ⟨hm, ht⟩
  · exact ⟨hm, ht⟩

theorem PolyTracked.scan (c : Cfg) {e : Engine} (h : PolyTracked e) : PolyTracked (scan c e) := by
  have h1 := foldl_induction (P := PolyTracked) (fun _ k h => h.scanRelease k) allKeys h
  have h2 := foldl_induction (P := PolyTracked) (fun _ k h => h.scanPress c k) allKeys h1
  simp only [Machine.scan]; split
  · exact foldl_induction (P := PolyTracked) (fun _ k h => h.rescanKey c k) allKeys h2
  · exact h2

@[simp] theorem scan_keymode (c : Cfg) (e : Engine) : (scan c e).vm.keymode = e.vm.keymode :=
  scan_induction (P := fun e' => e'.vm.keymode = e.vm.keymode) (fun _ _ _ h => h)
    (fun _ _ h => by rw [freeVoice_keymode]; exact h) (fun _ _ _ h => by rw [assignVoice_keymode]; exact h) rfl

theorem AssignmentWf.scan (c : Cfg) {e : Engine} (h : AssignmentWf e.vm) : AssignmentWf (scan c e).vm := by
  intro hm
  rw [scan_keymode] at hm
  obtain ⟨-, ht⟩ := PolyTracked.scan c (e := e) ⟨hm, h hm⟩
  exact ht

/-! ### The block -/

/-- Outside Poly1 and Poly2 the invariant of assignment asks nothing. -/
theorem assignmentWf_of_hasArp {m : VoiceManager} (h : hasArp m.keymode = true) : AssignmentWf m := by
  rintro (hm | hm) <;> rw [hm] at h <;> cases h

@[simp] theorem arpPlay_keymode (c : Cfg) (e : Engine) (k : Key) : (arpPlay c e k).vm.keymode = e.vm.keymode := by
  by_cases hr : (e.vm.arpRetrig && (e.vm.voice .v2).vkey != none) = true
  · rw [arpPlay_of_retrigger c k hr]; rfl
  · rw [arpPlay, if_neg hr]; exact assignVoice_keymode ..

@[simp] theorem arpDue_keymode (c : Cfg) (e : Engine) : (arpDue c e).vm.keymode = e.vm.keymode := by
  unfold arpDue; split
  · rw [Engine.addArpCnt_vm_keymode]
    simp only [arpStep, arpPlay_keymode]
    split <;> rfl
  · rfl

@[simp] theorem arpEmpty_keymode (e : Engine) : (arpEmpty e).vm.keymode = e.vm.keymode := by
  simp only [arpEmpty]; split
  · rfl
  · exact freeVoice_keymode e .v2

/-- The arpeggiator works only where the invariant of assignment asks nothing (R310). -/
theorem AssignmentWf.arpUpdate (c : Cfg) {e : Engine} (h : AssignmentWf e.vm) : AssignmentWf (arpUpdate c e).vm := by
  simp only [Machine.arpUpdate]; split
  · next hmode =>
    refine assignmentWf_of_hasArp ?_
    split
    · rw [arpEmpty_keymode]; exact hmode
    · rw [Engine.addArpCnt_vm_keymode, arpDue_keymode]; exact hmode
  · exact h

theorem AssignmentWf.arpOwed (c : Cfg) {e : Engine} (hok : EngineOk e) (h : AssignmentWf e.vm) :
    AssignmentWf (arpOwed c e).vm := by
  obtain ⟨-, heq⟩ | ⟨hp, -, heq⟩ | ⟨k, hp, -, heq⟩ := arpOwed_cases c e
  · rw [heq]; exact h
  · rw [heq]; exact h
  · obtain ⟨-, hmode⟩ := hok.manager.owed hp
    rw [heq]
    exact assignmentWf_of_hasArp (by rw [← hmode]; exact congrArg hasArp (assignVoice_keymode ..))

theorem AssignmentWf.glideStep {m : VoiceManager} (h : AssignmentWf m) : AssignmentWf (glideStep m) := by
  refine h.of_eq rfl (fun v => ?_) fun _ => rfl
  obtain ⟨hkey, -⟩ := glideVoice_keeps (m.voice v)
  rw [glideStep_voice, hkey]

theorem AssignmentWf.subBlock (c : Cfg) {e : Engine} (hok : EngineOk e) (h : AssignmentWf e.vm) :
    AssignmentWf (subBlock c e).1.vm := by
  obtain ⟨hok', h'⟩ := clkTicks_induction (c := c) (P := fun e' => EngineOk e' ∧ AssignmentWf e'.vm)
    (fun _ h => ⟨h.1.clkTick c, h.2.glideStep⟩) subblock
    ⟨hok.evalRoutes, by rw [evalRoutes_vm]; exact h⟩
  exact h'.arpOwed c hok'

theorem AssignmentWf.runBlock (c : Cfg) {e : Engine} (hok : EngineOk e) (hp : e.vm.arpPending = false)
    (h : AssignmentWf e.vm) : AssignmentWf (runBlock c e).1.vm := by
  have h1 : EngineOk (Machine.arpUpdate c (Machine.scan c e)) :=
    (hok.scan c).arpUpdate c (by rw [scan_arpPending, hp])
  obtain ⟨-, h2⟩ := subBlocks_induction (c := c) (P := fun e' => EngineOk e' ∧ AssignmentWf e'.vm)
    (fun _ h => ⟨(h.1.subBlock c).1, h.2.subBlock c h.1⟩) (c.blockSize / subblock) ⟨h1, (h.scan c).arpUpdate c⟩
  exact h2

end Sys2Proof.Machine
end

section
/-! PROOFS. Every controller entry keeps the engine well-formed, and from that every step the machine. -/

namespace Sys2Proof.Machine

open Sys2Proof

/-! ### The controllers (R280 to R289) -/

/-- What the VoiceManager with its pair keeps between commands. -/
structure EngineWf (e : Engine) : Prop where
  audio : ChipWf e.audio
  modulation : ChipWf e.modulation
  manager : ManagerWf e.vm
  assignment : AssignmentWf e.vm

/-- Between commands no note is owed. -/
theorem EngineWf.ok {e : Engine} (h : EngineWf e) : EngineOk e ∧ e.vm.arpPending = false := by
  obtain ⟨hok, hp⟩ := managerWf_iff.1 h.manager
  exact ⟨⟨h.audio, h.modulation, hok⟩, hp⟩

theorem EngineWf.policy {e : Engine} (h : EngineWf e) (v : VoiceId) : PolicyWf (e.vm.voice v) := by
  obtain ⟨hok, hp⟩ := h.ok
  exact ⟨hok.manager.gate v fun _ => hp, hok.manager.bounds v⟩

theorem EngineWf.writeAudio {e : Engine} (h : EngineWf e) (r : Reg) (d : Byte) : EngineWf (e.writeAudio r d) :=
  ⟨h.audio.chipWrite r d, h.modulation, h.manager, h.assignment⟩

theorem EngineWf.writeModulation {e : Engine} (h : EngineWf e) (r : Reg) (d : Byte) : EngineWf (e.writeModulation r d) :=
  ⟨h.audio, h.modulation.chipWrite r d, h.manager, h.assignment⟩

/-- A voice's policy state may change within its ranges while the voice keeps its key. -/
theorem EngineWf.setVoice {e : Engine} (h : EngineWf e) {v : VoiceId} {p : PolicyVoice} (hp : PolicyWf p)
    (hkey : p.vkey = (e.vm.voice v).vkey) : EngineWf (e.setVoice v p) := by
  obtain ⟨hok, hpend⟩ := h.ok
  obtain ⟨hgate, hbounds⟩ := policyWf_iff.1 hp
  refine ⟨h.audio, h.modulation, managerWf_iff.2 ⟨hok.manager.setVoice hgate hbounds, hpend⟩,
    h.assignment.of_eq rfl (fun u => ?_) fun _ => rfl⟩
  rw [Engine.setVoice_vm, VoiceManager.voice_setVoice]; split
  · next hu => rw [hkey, hu]
  · rfl

theorem EngineWf.writeActrl {e : Engine} (h : EngineWf e) {v : VoiceId} {b : Byte}
    (hb : b.getLsbD 0 = (e.vm.voice v).actrl.getLsbD 0) : EngineWf (e.writeActrl v b) := by
  obtain ⟨hgate, hbounds⟩ := h.policy v
  exact (h.setVoice (p := { e.vm.voice v with actrl := b }) ⟨hb.trans hgate, hbounds⟩ rfl).writeAudio _ _

/-- A control byte from a controller takes its gate bit from the shadow (R281). -/
theorem gate_of_merge (b a : Byte) : ((b &&& 0xFE#8) ||| (a &&& 0x01#8)).getLsbD 0 = a.getLsbD 0 := by
  simp

theorem EngineWf.ctrlAudio {e : Engine} (h : EngineWf e) (r : Reg) (b : Byte) : EngineWf (ctrlAudio e r b) := by
  cases r with
  | voice v r =>
    cases r with
    | freqLo => exact h
    | freqHi => exact h
    | pwLo => exact h.setVoice (h.policy v) rfl
    | pwHi => exact h.setVoice (h.policy v) rfl
    | ctrl => exact h.writeActrl (gate_of_merge b _)
    | ad => exact h.writeAudio _ _
    | sr => exact h.writeAudio _ _
  | fcLo => exact ⟨h.audio, h.modulation, h.manager, h.assignment⟩
  | fcHi => exact ⟨h.audio, h.modulation, h.manager, h.assignment⟩
  | osc3 => exact h
  | env3 => exact h
  | _ => exact h.writeAudio _ _

theorem EngineWf.ctrlModulation {e : Engine} (h : EngineWf e) (r : Reg) (b : Byte) : EngineWf (ctrlModulation e r b) := by
  cases r with
  | osc3 => exact h
  | env3 => exact h
  | _ => exact h.writeModulation _ _

theorem freeAll_vkey (e : Engine) (v : VoiceId) : ((freeAll e).vm.voice v).vkey = none := by
  cases v <;> simp [freeAll, freeVoice_vkey]

/-- A new key mode starts with no voice assigned and nothing tracked (R283). -/
theorem EngineWf.ctrlKeyMode {e : Engine} (h : EngineWf e) (m : KeyMode) : EngineWf (ctrlKeyMode e m) := by
  unfold Machine.ctrlKeyMode; split
  · exact h
  · obtain ⟨hok, hp⟩ := h.ok
    have hfree : EngineOk (freeAll e) := ((hok.freeVoice .v1).freeVoice .v2).freeVoice .v3
    have hpend : (freeAll e).vm.arpPending = false := by simp only [freeAll, freeVoice_arpPending, hp]
    obtain ⟨hbounds, hgate, -, hidx, -⟩ := hfree.manager
    refine ⟨hfree.audio, hfree.modulation, managerWf_iff.2 ⟨⟨hbounds, fun v _ => hgate v fun _ => hpend, Nat.zero_le _,
      Nat.zero_lt_of_lt hidx, fun hc => nomatch hc⟩, rfl⟩, fun _ => ⟨fun v k hv => ?_, fun v w k hv _ => ?_⟩⟩
    · exact nomatch (freeAll_vkey e v).symm.trans hv
    · exact nomatch (freeAll_vkey e v).symm.trans hv

theorem EngineWf.ctrlGlide {e : Engine} (h : EngineWf e) (v : VoiceId) (val : BitVec 14) : EngineWf (ctrlGlide e v val) := by
  obtain ⟨hgate, hlo, hhi, -, -, hleft⟩ := h.policy v
  have hval := val.isLt
  have hn : (BitVec.ofNat 32 (16 * val.toNat)).toNat = 16 * val.toNat := by rw [BitVec.toNat_ofNat]; omega
  refine h.setVoice ⟨hgate, hlo, hhi, ?_, ?_, hleft⟩ rfl
  · rw [hn]; omega
  · rw [hn]; omega

theorem EngineWf.ctrlTune {e : Engine} (h : EngineWf e) (v : VoiceId) (val : BitVec 14) : EngineWf (ctrlTune e v val) :=
  h.setVoice (h.policy v) rfl

theorem EngineWf.ctrlTranspose {e : Engine} (h : EngineWf e) (v : VoiceId) (val : BitVec 14) :
    EngineWf (ctrlTranspose e v val) := by
  obtain ⟨hgate, -, -, hrest⟩ := h.policy v
  obtain ⟨hlo, hhi⟩ := clampInt_bounds (v := val.toNat) (show (0 : Int) ≤ 48 by norm_num)
  have ht : (transposeOfVal val).toInt = clampInt val.toNat 0 48 - 24 := by
    rw [transposeOfVal, BitVec.toInt_ofInt, Int.bmod_eq_of_le (by omega) (by omega)]
  refine h.setVoice ⟨hgate, ?_, ?_, hrest⟩ rfl
  · rw [ht]; omega
  · rw [ht]; omega

theorem EngineWf.ctrlManager {e : Engine} (h : EngineWf e) (idx : Nat) (val : BitVec 14) :
    EngineWf (ctrlManager e idx val) := by
  have ⟨ha, hm, hw, hk⟩ := h
  unfold Machine.ctrlManager; split
  case h_1 => exact h.ctrlKeyMode _
  case h_3 | h_4 | h_5 => exact h.ctrlGlide _ val
  case h_6 | h_7 | h_8 => exact h.ctrlTune _ val
  case h_9 | h_10 | h_11 => exact h.ctrlTranspose _ val
  case h_20 => split <;> exact ⟨ha, hm, hw, hk⟩
  all_goals exact ⟨ha, hm, hw, hk⟩

theorem EngineWf.ctrlEffect {e : Engine} (h : EngineWf e) (idx : Nat) (val : BitVec 14) : EngineWf (ctrlEffect e idx val) := by
  unfold Machine.ctrlEffect; split
  · split
    · exact h.ctrlAudio _ _
    · exact h
  · split
    · split
      · exact h.ctrlModulation _ _
      · exact h
    · exact h.ctrlManager idx val

/-! ### The step -/

theorem EngineStep.wf {k : Cfg} (hk : k.wf) {e e' : Engine} (hs : EngineStep k e e') (h : EngineWf e) : EngineWf e' := by
  cases hs with
  | noteOn key vel => exact ⟨h.audio, h.modulation, h.manager, h.assignment⟩
  | noteOff key => exact ⟨h.audio, h.modulation, h.manager, h.assignment⟩
  | ctrlChange idx val => exact h.ctrlEffect idx val
  | clk =>
    obtain ⟨hok, hp⟩ := h.ok
    obtain ⟨hok', hp'⟩ := hok.runBlock hk hp
    exact ⟨hok'.audio, hok'.modulation, managerWf_iff.2 ⟨hok'.manager, hp'⟩, h.assignment.runBlock k hok hp⟩

/-- What holds of the chips of a pool and of a chip put into it, holds of the chips of the new pool. -/
theorem chips_of_set {P : Chip → Prop} {l : List (Option Chip)} {n : Nat} {y : Option Chip} (hl : ∀ c, some c ∈ l → P c)
    (hy : ∀ c, y = some c → P c) : ∀ c, some c ∈ l.set n y → P c := by
  intro c hc
  obtain hmem | heq := List.mem_or_eq_of_mem_set hc
  · exact hl c hmem
  · exact hy c heq.symm

theorem Effect.wf {s t : State} (he : Effect s t) (h : StateWf s) : StateWf t := by
  obtain ⟨hcfg, hchips, hmanager, hassign⟩ := h
  cases he with
  | fail code v => exact ⟨hcfg, hchips, hmanager, hassign⟩
  | slot v hx hs =>
    exact ⟨hcfg, chips_of_set hchips (hs.wf fun c hc => hchips c (List.mem_of_getElem? (hc ▸ hx))), hmanager, hassign⟩
  | engine r hp hs =>
    obtain ⟨ha, hm⟩ := hp
    obtain ⟨haudio, hmodulation, hmanager', hassign'⟩ :=
      hs.wf hcfg ⟨hchips _ (List.mem_of_getElem? ha), hchips _ (List.mem_of_getElem? hm), hmanager, hassign⟩
    exact ⟨hcfg, chips_of_set (chips_of_set hchips fun c hc => by cases hc; exact haudio) fun c hc => by
      cases hc; exact hmodulation, hmanager', hassign'⟩

/-- Settles O59: a context's move touches nothing the invariant speaks of, and every effect of a word keeps it. -/
theorem everyStepKeepsTheMachineWellFormed : Obligations.EveryStepKeepsTheMachineWellFormed := by
  intro s t hs h
  obtain ⟨hcfg, hpool, hvm⟩ | ⟨rest, he⟩ := step_effect h
  · rw [StateWf, hcfg, hpool, hvm]; exact hs
  · exact he.wf hs

end Sys2Proof.Machine
end

section
/-! PROOFS. The decoded fields as arithmetic on the register bytes (R24). The cutoff is a division by a power of two, which
is exact; the rate pairs follow from the table of nominal times. -/

namespace Sys2Proof.Machine

open Sys2Proof

/-! ### Division by a power of two -/

/-- A significand that is a whole number of last places, below the top, is kept by the rounding. -/
theorem roundPack_exact_of_int (neg : Bool) {m : ℕ} {e j : ℤ} (hm : m ≠ 0) (hj : (m : ℚ) * 2 ^ (e - ulpExp m e) = j)
    (htop : e + m.log2 ≤ 126) :
    isFinite (roundPack neg m e) = true ∧ f32Value (roundPack neg m e) = signed neg m * 2 ^ e := by
  obtain ⟨t, ht⟩ := exists_ulpExp_eq m e
  have hN := roundShift_le m e
  have hu := ulpExp_eq_or m e
  have hlt : t * 2 ^ 23 + roundShift m (ulpExp m e - e) < 0x7F800000 := by omega
  have hexact : (roundShift m (ulpExp m e - e) : ℚ) = m * 2 ^ (e - ulpExp m e) := by
    have hnear := nearestEven_significand m e
    rw [hj] at hnear
    rw [hj, ← hnear.eq_of_int, Int.cast_natCast]
  constructor
  · rw [roundPack, roundMag_eq hm ht hlt]; exact isFinite_withSign neg hlt
  · rw [f32Value_roundPack hm ht hlt, ← signed_mul, ← signed_mul, hexact, mul_assoc, ← zpow_add₀ (by norm_num),
      sub_add_cancel]

/-- Dividing by a power of two loses no bit of the integer quotient. -/
theorem divFin_pow_two (n1 n2 : Bool) (m : ℕ) (e1 e2 : ℤ) :
    divFin n1 m e1 n2 (2 ^ 23) e2 = roundPack (n1 ^^ n2) (m * 2 ^ 42) (e1 - e2 - 65) := by
  have hq : m * 2 ^ 64 / 2 ^ 23 = m * 2 ^ 41 := by omega
  have hr : m * 2 ^ 64 % 2 ^ 23 = 0 := by omega
  have hm : 2 * (m * 2 ^ 41) + 0 = m * 2 ^ 42 := by omega
  simp only [divFin, hq, hr, if_true]
  rw [hm, sub_sub]

/-- A significand shifted left by 42 is a whole number of units that are not above the shifted one. -/
theorem shifted_eq_int (m : ℕ) {e u : ℤ} (hu : u ≤ e + 42) :
    ((m * 2 ^ 42 : ℕ) : ℚ) * 2 ^ (e - u) = ((m * 2 ^ (e + 42 - u).toNat : ℤ) : ℚ) := by
  have hz : (2 : ℚ) ^ (e + 42 - u).toNat = 2 ^ 42 * 2 ^ (e - u) := by
    rw [← zpow_natCast, Int.toNat_of_nonneg (by omega), show e + 42 - u = 42 + (e - u) by ring, zpow_add₀ (by norm_num)]
    rfl
  rw [Int.cast_mul, Int.cast_pow, Int.cast_ofNat, hz, Nat.cast_mul, Nat.cast_pow, Nat.cast_ofNat, Int.cast_natCast]
  ring

/-- A quotient by a power of two is exact, unless it leaves the range of the normal exponents. -/
theorem fdiv_pow_two {a b : F32} {n1 n2 : Bool} {m : ℕ} {e1 e2 : ℤ} (ha : unpack a = .fin n1 m e1) (hm : m < 2 ^ 24)
    (hb : unpack b = .fin n2 (2 ^ 23) e2) (hexp : m ≠ 0 → -126 ≤ e1 - e2 ∧ e1 - e2 ≤ 126) :
    isFinite (fdiv a b) = true ∧ f32Value (fdiv a b) = f32Value a / f32Value b := by
  have heq : fdiv a b = roundPack (n1 ^^ n2) (m * 2 ^ 42) (e1 - e2 - 65) := by
    rw [← divFin_pow_two, fdiv, ha, hb]; rfl
  have hval : f32Value a / f32Value b = signed (n1 ^^ n2) (m * 2 ^ 42 : ℕ) * 2 ^ (e1 - e2 - 65) := by
    rw [f32Value_eq_signed_mul ha, f32Value_eq_signed_mul hb, mul_div_mul_comm, signed_div_signed,
      ← zpow_sub₀ (by norm_num), zpow_sub₀ (by norm_num) (e1 - e2) 65, signed, signed]
    push_cast
    split <;> norm_num <;> ring
  rw [heq, hval]
  by_cases h0 : m = 0
  · subst h0
    rw [Nat.zero_mul, roundPack_zero, f32Value_f32Zero]
    exact ⟨isFinite_withSign _ (by omega), by simp [signed]⟩
  · obtain ⟨hlo, hhi⟩ := hexp h0
    have hm0 : m * 2 ^ 42 ≠ 0 := by positivity
    have hlog : (m * 2 ^ 42).log2 < 66 := (Nat.log2_lt hm0).2 (by omega)
    have hu : ulpExp (m * 2 ^ 42) (e1 - e2 - 65) ≤ e1 - e2 - 65 + 42 := by
      have := ulpExp_eq_or (m * 2 ^ 42) (e1 - e2 - 65)
      omega
    exact roundPack_exact_of_int _ hm0 (shifted_eq_int m hu) (by omega)

/-- The exponent of a value that is at least 1. -/
theorem exponent_of_one_le {m : ℕ} {e : ℤ} (hm : m < 2 ^ 24) (h : (1 : ℚ) ≤ m * 2 ^ e) : -23 ≤ e := by
  by_contra hlt
  have hm' : (m : ℚ) < 2 ^ 24 := by exact_mod_cast hm
  have : (1 : ℚ) < 1 := calc
    (1 : ℚ) ≤ m * 2 ^ e := h
    _ < 2 ^ 24 * 2 ^ e := by gcongr
    _ ≤ 2 ^ 24 * 2 ^ (-24 : ℤ) := by gcongr <;> [norm_num; omega]
    _ = 1 := by norm_num
  exact lt_irrefl _ this

/-- An integer of at most 24 bits over 2048 is exact (R236). -/
theorem i2f_div_2048 {n : ℕ} (hn : n < 2 ^ 24) :
    isFinite (fdiv (i2f n) f2048) = true ∧ f32Value (fdiv (i2f n) f2048) = (n : ℚ) / 2048 := by
  obtain ⟨hfin, hval⟩ := i2f_exact (n := n) (by rw [abs_of_nonneg (by omega)]; exact_mod_cast hn.le)
  obtain ⟨s, m, e, hu, hm, -, he⟩ := unpack_of_finite hfin
  have hb : unpack f2048 = .fin false (2 ^ 23) (-12) := by decide
  have hexp : m ≠ 0 → -126 ≤ e - -12 ∧ e - -12 ≤ 126 := fun hm0 => by
    have habs : (m : ℚ) * 2 ^ e = n := by
      have : |f32Value (i2f n)| = m * 2 ^ e := by
        rw [f32Value_of_unpack hu, abs_mul, abs_of_pos (a := (2 : ℚ) ^ e) (by positivity)]; cases s <;> simp
      rw [← this, hval, Int.cast_natCast, abs_of_nonneg (by positivity)]
    have hpos : (0 : ℚ) < n := by rw [← habs]; positivity
    have hone : (1 : ℚ) ≤ n := by exact_mod_cast hpos
    have := exponent_of_one_le hm (habs ▸ hone)
    omega
  obtain ⟨hf, hq⟩ := fdiv_pow_two hu hm hb hexp
  refine ⟨hf, ?_⟩
  rw [hq, hval, f32Value_of_unpack hb]
  norm_num

/-! ### The fields of the registers (R88 to R97) -/

theorem toNat_append {n m : ℕ} (a : BitVec n) (b : BitVec m) : (a ++ b).toNat = 2 ^ m * a.toNat + b.toNat := by
  rw [BitVec.toNat_append, ← Nat.shiftLeft_add_eq_or_of_lt b.isLt, Nat.shiftLeft_eq, Nat.mul_comm]

theorem lowBits_toNat (x : Byte) (n : ℕ) : (x.extractLsb' 0 n).toNat = x.toNat % 2 ^ n := by
  rw [BitVec.extractLsb'_toNat, Nat.shiftRight_zero]

theorem lowNibble_toNat (x : Byte) : (x.extractLsb' 0 4).toNat = x.toNat % 16 := lowBits_toNat x 4

theorem highNibble_toNat (x : Byte) : (x.extractLsb' 4 4).toNat = x.toNat / 16 := by
  have := x.isLt
  rw [BitVec.extractLsb'_toNat, Nat.shiftRight_eq_div_pow]
  omega

theorem freq16_toNat (c : Chip) (v : VoiceId) :
    (freq16 c v).toNat = 256 * (c.reg (.voice v .freqHi)).toNat + (c.reg (.voice v .freqLo)).toNat :=
  toNat_append _ _

theorem pw12_toNat (c : Chip) (v : VoiceId) :
    (pw12 c v).toNat = 256 * ((c.reg (.voice v .pwHi)).toNat % 16) + (c.reg (.voice v .pwLo)).toNat := by
  rw [pw12, toNat_append, lowNibble_toNat]; norm_num

theorem suslevel_toNat (c : Chip) (v : VoiceId) : (suslevel c v).toNat = 17 * (sus c v).toNat := by
  have := (sus c v).isLt
  rw [suslevel, BitVec.toNat_ofNat]
  omega

theorem inc_toNat (k : Cfg) (c : Chip) (v : VoiceId) :
    (inc k c v).toNat = (freq16 c v).toNat * c.params.clkHz.toNat / k.sampleRate % 2 ^ 24 :=
  BitVec.toNat_ofNat ..

/-- The detune offset is smaller than the increment, so it fits (R172). -/
theorem dt_toNat (k : Cfg) (c : Chip) (v : VoiceId) :
    (dt k c v).toNat = (inc k c v).toNat * c.params.detune.toNat / 65536 := by
  rw [dt, BitVec.toNat_ofNat]
  refine Nat.mod_eq_of_lt (Nat.div_lt_of_lt_mul ?_)
  calc (inc k c v).toNat * c.params.detune.toNat
      ≤ (inc k c v).toNat * 65536 := Nat.mul_le_mul_left _ c.params.detune.isLt.le
    _ < 65536 * 2 ^ 24 := by have := (inc k c v).isLt; omega

theorem fc11_toNat (c : Chip) : (fc11 c).toNat = 8 * (c.reg .fcHi).toNat + (c.reg .fcLo).toNat % 8 := by
  rw [fc11, toNat_append, lowBits_toNat]; norm_num

theorem f32Value_cutoff (c : Chip) : f32Value (cutoff c) = ((fc11 c).toNat : ℚ) / 2048 :=
  (i2f_div_2048 ((fc11 c).isLt.trans (by norm_num))).2

/-- The registers of a voice stand at its base address, in the order of R23. -/
theorem reg_of_base {v : VoiceId} {b : Fin 15} (h : v = .v1 ∧ b = 0 ∨ v = .v2 ∧ b = 7 ∨ v = .v3 ∧ b = 14) (r : VReg) :
    b.val + r.offset = (Reg.voice v r).addr := by
  obtain ⟨rfl, rfl⟩ | ⟨rfl, rfl⟩ | ⟨rfl, rfl⟩ := h <;> rfl

/-! ### The rate pairs (R201 to R203) -/

theorem rateMs_eq_getD (code : BitVec 4) :
    rateMs code = [2, 8, 16, 24, 38, 56, 68, 80, 100, 250, 500, 800, 1000, 3000, 5000, 8000].getD code.toNat 0 := by
  revert code; decide

theorem ratePair_of_slow {k : Cfg} {code : BitVec 4} (h : 255000 ≤ rateMs code * k.sampleRate) :
    ratePair k code = { hold := (2 * (rateMs code * k.sampleRate) + 255000) / 510000, step := 1 } := by
  simp only [ratePair, if_pos h]

theorem ratePair_of_fast {k : Cfg} {code : BitVec 4} (h : rateMs code * k.sampleRate < 255000) :
    ratePair k code = { hold := 1, step := (255000 + rateMs code * k.sampleRate - 1) / (rateMs code * k.sampleRate) } := by
  simp only [ratePair, if_neg (not_le.2 h)]

/-- The integer quotient rounded up is the ceiling. -/
theorem natDiv_up_eq_ceil (a : ℕ) {b : ℕ} (hb : 0 < b) : (((a + b - 1) / b : ℕ) : ℤ) = ⌈(a : ℚ) / b⌉ := by
  have hb' : (0 : ℚ) < b := by exact_mod_cast hb
  have hdiv := Nat.div_add_mod (a + b - 1) b
  have hmod := Nat.mod_lt (a + b - 1) hb
  rw [eq_comm, Int.ceil_eq_iff, lt_div_iff₀ hb', div_le_iff₀ hb']
  generalize (a + b - 1) / b = q at *
  have hle : a ≤ q * b := by rw [Nat.mul_comm]; omega
  have hlt : q * b < a + b := by rw [Nat.mul_comm]; omega
  constructor
  · have : (q : ℚ) * b < a + b := by exact_mod_cast hlt
    push_cast
    linarith
  · exact_mod_cast hle

theorem one_le_rateMs (code : BitVec 4) : 1 ≤ rateMs code := by
  revert code; decide

/-- The (hold, step) pairs at 44100 Hz (R203). -/
theorem ratePairs_44100 {k : Cfg} (h : k.sampleRate = 44100) :
    (List.range 16).map (fun n => ((ratePair k (BitVec.ofNat 4 n)).hold, (ratePair k (BitVec.ofNat 4 n)).step)) =
      [(1, 3), (1, 1), (3, 1), (4, 1), (7, 1), (10, 1), (12, 1), (14, 1), (17, 1), (43, 1), (86, 1), (138, 1), (173, 1),
        (519, 1), (865, 1), (1384, 1)] := by
  simp only [ratePair, h]
  decide

/-- Settles O21: each field by the lemma on its register, the cutoff as an exact division, the rates by the table. -/
theorem decodedFieldsFollowTheRegisters : Obligations.DecodedFieldsFollowTheRegisters := by
  refine ⟨fun k c v b hb => ?_, fun k code hk => ⟨fun hslow => ?_, fun hfast => ?_⟩, fun k hk => ratePairs_44100 hk⟩
  · have hreg (r : VReg) : c.regs[b.val + r.offset]'(by rw [reg_of_base hb]; exact Reg.addr_lt _) = c.reg (.voice v r) := by
      simp only [Chip.reg, reg_of_base hb]
    have hfreqLo : c.reg (.voice v .freqLo) = c.regs[b.val] := (hreg .freqLo).symm
    have hfreqHi : c.reg (.voice v .freqHi) = c.regs[b.val + 1] := (hreg .freqHi).symm
    have hpwLo : c.reg (.voice v .pwLo) = c.regs[b.val + 2] := (hreg .pwLo).symm
    have hpwHi : c.reg (.voice v .pwHi) = c.regs[b.val + 3] := (hreg .pwHi).symm
    have hctrl (i : ℕ) (hi : i < 8) : c.bit (.voice v .ctrl) i = (c.regs[b.val + 4])[i] := by
      rw [Chip.bit, ← hreg]; rfl
    have had : c.reg (.voice v .ad) = c.regs[b.val + 5] := (hreg .ad).symm
    have hsr : c.reg (.voice v .sr) = c.regs[b.val + 6] := (hreg .sr).symm
    exact ⟨by rw [freq16_toNat, hfreqHi, hfreqLo], by rw [pw12_toNat, hpwHi, hpwLo], hctrl 7 _, hctrl 6 _, hctrl 5 _,
      hctrl 4 _, hctrl 3 _, hctrl 2 _, hctrl 1 _, hctrl 0 _, by rw [atk, highNibble_toNat, had],
      by rw [dcy, lowNibble_toNat, had], by rw [sus, highNibble_toNat, hsr], by rw [rel, lowNibble_toNat, hsr],
      suslevel_toNat c v, inc_toNat k c v, dt_toNat k c v, fc11_toNat c, f32Value_cutoff c, highNibble_toNat _, rfl, rfl,
      rfl, rfl, rfl, rfl, rfl, lowNibble_toNat _, rfl, rfl, rfl⟩
  · rw [← rateMs_eq_getD] at hslow ⊢
    exact ratePair_of_slow hslow
  · rw [← rateMs_eq_getD] at hfast ⊢
    have hpos : 0 < rateMs code * k.sampleRate := Nat.mul_pos (one_le_rateMs code) hk
    rw [ratePair_of_fast hfast]
    exact ⟨rfl, by exact_mod_cast natDiv_up_eq_ceil 255000 hpos⟩

end Sys2Proof.Machine
end

section
/-! PROOFS. The shared command port (R70, R71): what one move hands over and performs, and from it what a whole list of
moves does. The two contexts are treated alike, by their issued words. -/

namespace Sys2Proof.Machine

open Sys2Proof

/-- Settles O2: the step that performs a word performs what the word decodes to. -/
theorem stepRunsTheDecodedCommand : Obligations.StepRunsTheDecodedCommand := by
  intro s s' w i hnext hdecode
  rw [step_of_commandNext hnext, perform, hdecode]

/-! ### What a move does to the contexts -/

/-- What arrives over the whole list of moves, in arrival order (R71). -/
abbrev Agents.arriving (a : Agents) : List (Context × CmdWord) := arrivals a.moves a.control a.render

/-- What move `m` hands to the port: the oldest word of the context that moves, where it has issued one. -/
def Agents.handed (a : Agents) : Move → List (Context × CmdWord)
  | .arrive c => ((a.issued c).take 1).map (Prod.mk c)
  | .perform => []

/-- The contexts after move `m`, taken from the head of the list of moves. -/
def Agents.afterMove (a : Agents) : Move → Agents
  | .arrive c => a.advance.setIssued c ((a.issued c).drop 1)
  | .perform => a.advance

@[simp] theorem Agents.afterMove_moves (a : Agents) (m : Move) : (a.afterMove m).moves = a.moves.tail := by
  cases m with
  | arrive c => exact Agents.setIssued_moves ..
  | perform => rfl

theorem Agents.ext_issued {a b : Agents} (hmoves : a.moves = b.moves) (hissued : ∀ c, a.issued c = b.issued c) : a = b := by
  cases a; cases b
  simp only [Agents.mk.injEq]
  exact ⟨hissued .control, hissued .render, hmoves⟩

/-- A context that has issued nothing stays as it is. -/
theorem Agents.setIssued_of_issued (a : Agents) (c : Context) : a.setIssued c (a.issued c) = a := by
  cases c <;> rfl

/-- Each context loses its oldest word for a move of its own, and none for another move. -/
theorem Agents.afterMove_issued (a : Agents) (m : Move) (d : Context) :
    (a.afterMove m).issued d = (a.issued d).drop ([m].count (.arrive d)) := by
  cases m with
  | perform => exact Agents.advance_issued a d
  | arrive c =>
    by_cases hcd : d = c
    · subst hcd
      rw [List.count_singleton_self]
      exact Agents.issued_setIssued_self ..
    · rw [List.count_eq_zero_of_not_mem (by simpa using hcd)]
      exact (Agents.issued_setIssued_ne _ _ hcd).trans (Agents.advance_issued a d)

/-- The arrivals over a list of moves are those of its first move, then those of the rest. -/
theorem Agents.arriving_of_cons {a : Agents} {m : Move} {ms : List Move} (h : a.moves = m :: ms) :
    a.arriving = a.handed m ++ (a.afterMove m).arriving := by
  obtain ⟨cs, rs, moves⟩ := a
  obtain rfl : moves = m :: ms := h
  match m with
  | .perform => rfl
  | .arrive .control => cases cs <;> rfl
  | .arrive .render => cases rs <;> rfl

/-! ### Each context's words arrive in its own order -/

theorem wordsOf_append (c : Context) (l l' : List (Context × CmdWord)) :
    wordsOf c (l ++ l') = wordsOf c l ++ wordsOf c l' := by
  simp only [wordsOf, List.filter_append, List.map_append]

theorem wordsOf_handed (a : Agents) (m : Move) (d : Context) :
    wordsOf d (a.handed m) = (a.issued d).take ([m].count (.arrive d)) := by
  cases m with
  | perform => rfl
  | arrive c =>
    by_cases hcd : c = d
    · subst hcd
      simp [wordsOf, Agents.handed, List.filter_map, Function.comp_def, -List.map_take]
    · simp [wordsOf, Agents.handed, List.filter_map, Function.comp_def, hcd, -List.map_take]

/-- As many words of a context arrive as it has moves, oldest first, as far as it has issued them (R71). -/
theorem wordsOf_arriving (a : Agents) (d : Context) :
    wordsOf d a.arriving = (a.issued d).take (a.moves.count (.arrive d)) := by
  generalize hms : a.moves = ms
  induction ms generalizing a with
  | nil => rw [Agents.arriving, hms]; rfl
  | cons m ms ih =>
    have hrest := ih (a.afterMove m) (by rw [Agents.afterMove_moves, hms]; rfl)
    calc wordsOf d a.arriving
        = wordsOf d (a.handed m) ++ wordsOf d (a.afterMove m).arriving := by
          rw [Agents.arriving_of_cons hms, wordsOf_append]
      _ = (a.issued d).take ([m].count (.arrive d))
            ++ ((a.issued d).drop ([m].count (.arrive d))).take (ms.count (.arrive d)) := by
          rw [wordsOf_handed, hrest, Agents.afterMove_issued]
      _ = (a.issued d).take ((m :: ms).count (.arrive d)) := by
          rw [← List.take_add, ← List.count_append]; rfl

/-! ### Words performed one after the other -/

theorem performAll_append {ws vs : List CmdWord} {s t : State} (h : performAll ws s = .next t) :
    performAll (ws ++ vs) s = performAll vs t := by
  induction ws generalizing s with
  | nil => cases h; rfl
  | cons w ws ih =>
    rw [List.cons_append, performAll]
    rw [performAll] at h
    cases hw : perform w s with
    | next u => rw [hw] at h; exact ih h
    | fault f => cases f
    | refused r => rw [hw] at h; cases h

/-- On the way from `s` to `t` the words `arrived` reached the port and the words `done` left it, from its head; the core
of `t` is what `done` gives on that of `s`, whatever waits and whatever the contexts do (R70, R71). -/
structure Served (s : State) (arrived done : List CmdWord) (t : State) : Prop where
  port : done ++ t.port = s.port ++ arrived
  core : ∀ (p : List CmdWord) (b : Agents),
    performAll done { s with port := p, agents := b } = .next { t with port := p, agents := b }

theorem Served.refl (s : State) : Served s [] [] s := ⟨(List.append_nil _).symm, fun _ _ => rfl⟩

theorem Served.trans {s t u : State} {arr arr' done done' : List CmdWord} (h : Served s arr done t)
    (h' : Served t arr' done' u) : Served s (arr ++ arr') (done ++ done') u where
  port := by rw [List.append_assoc, h'.port, ← List.append_assoc, h.port, List.append_assoc]
  core p b := (performAll_append (h.core p b)).trans (h'.core p b)

/-! ### One step, and a run -/

theorem State.advance_of_moves {s : State} {m : Move} {ms : List Move} (h : s.agents.moves = m :: ms) :
    s.advance = { s with agents := { s.agents with moves := ms } } := by
  rw [State.advance, Agents.advance, h]; rfl

theorem step_of_arrive {s : State} {c : Context} {ms : List Move} (h : s.agents.moves = .arrive c :: ms) :
    step s = .next (State.accept { s with agents := { s.agents with moves := ms } } c) := by
  rw [step, Agents.next, h, State.advance_of_moves h]

/-- The move of a context that has issued a word: the word goes to the tail of the port (R70, R71). -/
theorem step_of_arrive_cons {s : State} {c : Context} {ms : List Move} {w : CmdWord} {rest : List CmdWord}
    (h : s.agents.moves = .arrive c :: ms) (hi : s.agents.issued c = w :: rest) :
    step s = .next { s with
      port := s.port ++ [w], agents := Agents.setIssued { s.agents with moves := ms } c rest } := by
  have hi' : Agents.issued { s.agents with moves := ms } c = w :: rest := by cases c <;> exact hi
  exact (step_of_arrive h).trans (congrArg _ (State.accept_of_cons hi'))

/-- The move of a context that has issued nothing is used up. -/
theorem step_of_arrive_nil {s : State} {c : Context} {ms : List Move} (h : s.agents.moves = .arrive c :: ms)
    (hi : s.agents.issued c = []) : step s = .next { s with agents := { s.agents with moves := ms } } := by
  have hi' : Agents.issued { s.agents with moves := ms } c = [] := by cases c <;> exact hi
  exact (step_of_arrive h).trans (congrArg _ (State.accept_of_nil hi'))

/-- One step makes the first move of the list: it hands over what the move hands over, and performs at most the first word
of the port. -/
theorem step_served {s : State} {m : Move} {ms : List Move} (h : s.agents.moves = m :: ms) :
    ∃ t done, step s = .next t ∧ t.agents = s.agents.afterMove m
      ∧ Served s ((s.agents.handed m).map fun x => x.2) done t := by
  cases m with
  | arrive c =>
    rw [Agents.afterMove, Agents.handed, Agents.advance, h]
    cases hi : s.agents.issued c with
    | nil =>
      refine ⟨_, [], step_of_arrive_nil h hi, ?_, (List.append_nil _).symm, fun _ _ => rfl⟩
      rw [List.drop_nil, ← hi]
      exact (Agents.setIssued_of_issued { s.agents with moves := ms } c).symm
    | cons w rest => exact ⟨_, [], step_of_arrive_cons h hi, rfl, rfl, fun _ _ => rfl⟩
  | perform =>
    obtain ⟨c, hc, -⟩ | ⟨-, -, heq⟩ | ⟨w, rest, -, hp, heq⟩ := step_cases s
    · rw [Agents.next, h] at hc; cases hc
    · exact ⟨_, [], heq, rfl, (List.append_nil _).symm, fun _ _ => rfl⟩
    · obtain ⟨u, -, hu⟩ := perform_portBlind w s
      refine ⟨_, [w], heq.trans (hu rest s.agents.advance), rfl, ?_, fun p b => ?_⟩
      · rw [hp]; exact (List.append_nil _).symm
      · rw [performAll, hu p b]; rfl

theorem run_succ_of_step {M : Host.Core} {s t : M.State} (h : M.step s = .next t) (n : ℕ) : M.run (n + 1) s = M.run n t := by
  rw [Host.Core.run, h]

/-- A run over the list of moves uses it up, takes from each context a word for each of its moves, and serves what
arrives. -/
theorem run_served (s : State) : ∃ (t : State) (done : List CmdWord),
    Sys2Proof.core.run s.agents.moves.length s = .next t ∧ t.agents.moves = []
      ∧ (∀ c, t.agents.issued c = (s.agents.issued c).drop (s.agents.moves.count (.arrive c)))
      ∧ Served s (s.agents.arriving.map fun x => x.2) done t := by
  generalize hms : s.agents.moves = ms
  induction ms generalizing s with
  | nil =>
    refine ⟨s, [], rfl, hms, fun _ => rfl, ?_⟩
    rw [Agents.arriving, hms]
    exact Served.refl s
  | cons m ms ih =>
    obtain ⟨s', now, hstep, hagents, hnow⟩ := step_served hms
    obtain ⟨t, later, hrun, hmoves, hissued, hlater⟩ := ih s' (by rw [hagents, Agents.afterMove_moves, hms]; rfl)
    refine ⟨t, now ++ later, (run_succ_of_step (M := Sys2Proof.core) hstep _).trans hrun, hmoves, fun c => ?_, ?_⟩
    · rw [hissued, hagents, Agents.afterMove_issued, List.drop_drop, ← List.count_append]; rfl
    · rw [Agents.arriving_of_cons hms, List.map_append, ← hagents]
      exact hnow.trans hlater

/-- Settles O60: a single move by `step_of_arrive_cons` and `step_of_arrive_nil`, the order of a context's words by
`wordsOf_arriving`, the run by `run_served`. -/
theorem onlyTheInterleavingOfTheContextsMatters : Obligations.OnlyTheInterleavingOfTheContextsMatters := by
  refine ⟨fun s ms => ⟨fun w rest hmoves hissued => step_of_arrive_cons (c := .control) hmoves hissued,
    fun w rest hmoves hissued => step_of_arrive_cons (c := .render) hmoves hissued, ?_⟩, fun s => ?_⟩
  · rintro (⟨hmoves, hissued⟩ | ⟨hmoves, hissued⟩)
    · exact step_of_arrive_nil (c := .control) hmoves hissued
    · exact step_of_arrive_nil (c := .render) hmoves hissued
  · obtain ⟨t, done, hrun, hmoves, hissued, hserved⟩ := run_served s
    refine ⟨wordsOf_arriving s.agents .control, wordsOf_arriving s.agents .render, t, done, hrun,
      Agents.ext_issued hmoves fun c => ?_, hserved.port, fun p b => ⟨_, hserved.core p b, rfl⟩⟩
    cases c with
    | control => exact hissued .control
    | render => exact hissued .render

end Sys2Proof.Machine
end

section
/-! PROOFS. The fields of a command word (R80), and what the decoder makes of a word of each class (R81 to R86). -/

namespace Sys2Proof

/-! ### A word and its fields -/

section MkWord

variable (cls : BitVec 4) (h sel : Byte) (p : BitVec 32)

theorem extractLsb'_mkWord_payload {start len : ℕ} (hlen : start + len ≤ 32) :
    (mkWord cls h sel p).extractLsb' start len = p.extractLsb' start len :=
  BitVec.extractLsb'_append_eq_of_add_le hlen

/-- Above the payload and `rsvB` a word is class, `rsvA`, handle and `sel`. -/
theorem extractLsb'_mkWord_high {start : ℕ} (len : ℕ) (hstart : 40 ≤ start) :
    (mkWord cls h sel p).extractLsb' start len = (cls ++ 0#4 ++ h ++ sel).extractLsb' (start - 32 - 8) len :=
  (BitVec.extractLsb'_append_eq_of_le (by omega)).trans (BitVec.extractLsb'_append_eq_of_le (by omega))

@[simp] theorem fieldPayload_mkWord : fieldPayload (mkWord cls h sel p) = p :=
  BitVec.extractLsb'_append_eq_right

@[simp] theorem fieldRsvB_mkWord : fieldRsvB (mkWord cls h sel p) = 0#8 :=
  (BitVec.extractLsb'_append_eq_of_le (by decide)).trans BitVec.extractLsb'_append_eq_right

@[simp] theorem fieldSel_mkWord : fieldSel (mkWord cls h sel p) = sel :=
  (extractLsb'_mkWord_high cls h sel p 8 (by decide)).trans BitVec.extractLsb'_append_eq_right

@[simp] theorem fieldHandle_mkWord : fieldHandle (mkWord cls h sel p) = h :=
  (extractLsb'_mkWord_high cls h sel p 8 (by decide)).trans
    ((BitVec.extractLsb'_append_eq_of_le (by decide)).trans BitVec.extractLsb'_append_eq_right)

@[simp] theorem fieldRsvA_mkWord : fieldRsvA (mkWord cls h sel p) = 0#4 :=
  (extractLsb'_mkWord_high cls h sel p 4 (by decide)).trans
    ((BitVec.extractLsb'_append_eq_of_le (by decide)).trans
      ((BitVec.extractLsb'_append_eq_of_le (by decide)).trans BitVec.extractLsb'_append_eq_right))

@[simp] theorem fieldClass_mkWord : fieldClass (mkWord cls h sel p) = cls :=
  (extractLsb'_mkWord_high cls h sel p 4 (by decide)).trans
    ((BitVec.extractLsb'_append_eq_of_le (by decide)).trans
      ((BitVec.extractLsb'_append_eq_of_le (by decide)).trans BitVec.extractLsb'_append_eq_left))

end MkWord

/-- A word whose reserved fields are 0 is made of its other four fields. -/
theorem mkWord_fields {w : CmdWord} (hA : fieldRsvA w = 0#4) (hB : fieldRsvB w = 0#8) :
    mkWord (fieldClass w) (fieldHandle w) (fieldSel w) (fieldPayload w) = w := by
  rw [mkWord, ← hA, ← hB]
  simp only [fieldClass, fieldRsvA, fieldHandle, fieldSel, fieldRsvB, fieldPayload]
  repeat rw [BitVec.extractLsb'_append_extractLsb'_eq_extractLsb' (by rfl)]
  exact BitVec.extractLsb'_eq_self

theorem extractLsb'_fieldPayload (w : CmdWord) {start len : ℕ} (hlen : start + len ≤ 32) :
    (fieldPayload w).extractLsb' start len = w.extractLsb' start len := by
  rw [fieldPayload, BitVec.extractLsb'_extractLsb'_of_le (by omega)]

/-! ### The class of a word (R80) -/

theorem classOf_of_wr {w : CmdWord} (h : fieldClass w = 0#4) : classOf w = .wr := by rw [classOf, h]; rfl
theorem classOf_of_io {w : CmdWord} (h : fieldClass w = 1#4) : classOf w = .io := by rw [classOf, h]; rfl
theorem classOf_of_ev {w : CmdWord} (h : fieldClass w = 2#4) : classOf w = .ev := by rw [classOf, h]; rfl
theorem classOf_of_clk {w : CmdWord} (h : fieldClass w = 3#4) : classOf w = .clk := by rw [classOf, h]; rfl

theorem classOf_mkWord_wr (h a : Byte) (p : BitVec 32) : classOf (mkWord 0#4 h a p) = .wr :=
  classOf_of_wr (fieldClass_mkWord ..)
theorem classOf_mkWord_io (h c : Byte) (p : BitVec 32) : classOf (mkWord 1#4 h c p) = .io :=
  classOf_of_io (fieldClass_mkWord ..)
theorem classOf_mkWord_ev (h kind : Byte) (p : BitVec 32) : classOf (mkWord 2#4 h kind p) = .ev :=
  classOf_of_ev (fieldClass_mkWord ..)
theorem classOf_mkWord_clk (h sel : Byte) (p : BitVec 32) : classOf (mkWord 3#4 h sel p) = .clk :=
  classOf_of_clk (fieldClass_mkWord ..)

/-- The class of a word as its field says it: one of the four, or reserved from 4 up. -/
theorem classOf_cases (w : CmdWord) :
    (fieldClass w = 0#4 ∧ classOf w = .wr) ∨ (fieldClass w = 1#4 ∧ classOf w = .io) ∨
    (fieldClass w = 2#4 ∧ classOf w = .ev) ∨ (fieldClass w = 3#4 ∧ classOf w = .clk) ∨
    (4 ≤ (fieldClass w).toNat ∧ classOf w = .reserved) := by
  unfold classOf
  generalize fieldClass w = k
  revert k
  decide

theorem classOf_of_reserved {w : CmdWord} (h : 4 ≤ (fieldClass w).toNat) : classOf w = .reserved := by
  unfold classOf
  generalize fieldClass w = k at h
  revert k
  decide

/-! ### What the decoder makes of a word of each class (R81) -/

theorem decode_of_reservedClass {w : CmdWord} (h : classOf w = .reserved) : decode w = .error (.badCmd (classOf w)) := by
  rw [decode, h]

/-- A reserved field that is not 0 makes a word of any class `BadCmd`. -/
theorem decode_of_reservedField {w : CmdWord} (h : fieldRsvA w ≠ 0#4 ∨ fieldRsvB w ≠ 0#8) :
    decode w = .error (.badCmd (classOf w)) := by
  have hbits : (fieldRsvA w == 0#4 && fieldRsvB w == 0#8) = false := by
    simpa [Classical.or_iff_not_imp_left] using h
  cases hc : classOf w with
  | reserved => rw [decode, hc]
  | wr => simp only [decode, hc, hbits]; rfl
  | io => simp only [decode, hc, hbits]; rfl
  | ev => simp only [decode, hc, hbits]; rfl
  | clk => simp only [decode, hc, hbits]; rfl

/-- A WR word (R82): the must-be-zero bits of the payload, then the address. -/
theorem decode_mkWord_wr (h a : Byte) (p : BitVec 32) :
    decode (mkWord 0#4 h a p) =
      if p.extractLsb' 8 24 = 0#24 then (decodeWr a h (p.extractLsb' 0 8)).elim (.error (.badAddr h)) .ok
      else .error (.badCmd .wr) := by
  rw [decode, classOf_mkWord_wr]
  simp only [fieldRsvA_mkWord, fieldRsvB_mkWord, fieldPayload_mkWord, fieldSel_mkWord, fieldHandle_mkWord, beq_self_eq_true,
    Bool.true_and, beq_iff_eq]
  cases decodeWr a h (p.extractLsb' 0 8) <;> rfl

/-- An IO word (R83): the id. -/
theorem decode_mkWord_io (h c : Byte) (p : F32) : decode (mkWord 1#4 h c p) = orBadCmd .io (decodeIo c h p) := by
  simp [decode, classOf_mkWord_io]

/-- An EV word (R85): the handle field, then the kind and its payload. -/
theorem decode_mkWord_ev (h kind : Byte) (p : BitVec 32) :
    decode (mkWord 2#4 h kind p) = if h = 0#8 then orBadCmd .ev (decodeEv kind p) else .error (.badCmd .ev) := by
  simp [decode, classOf_mkWord_ev]

/-- A CLK word (R86): everything below the class is 0. -/
theorem decode_mkWord_clk (h sel : Byte) (p : BitVec 32) :
    decode (mkWord 3#4 h sel p) = if h = 0#8 ∧ sel = 0#8 ∧ p = 0#32 then .ok .clk else .error (.badCmd .clk) := by
  simp [decode, classOf_mkWord_clk, and_assoc]

/-- A word is malformed in a reserved field, or made of its other fields. -/
theorem decode_badCmd_or_fields {w : CmdWord} {k : BitVec 4} (hk : fieldClass w = k) :
    decode w = .error (.badCmd (classOf w)) ∨ ∃ h sel p, w = mkWord k h sel p := by
  by_cases hrsv : fieldRsvA w ≠ 0#4 ∨ fieldRsvB w ≠ 0#8
  · exact .inl (decode_of_reservedField hrsv)
  · obtain ⟨hA, hB⟩ : fieldRsvA w = 0#4 ∧ fieldRsvB w = 0#8 := by simpa using hrsv
    exact .inr ⟨_, _, _, by rw [← hk, mkWord_fields hA hB]⟩

end Sys2Proof
end

section
/-! PROOFS. Decoder, encoder and opcode map agree (R82 to R87, R99, R102): the two tables against the encoder, the payloads of
the events, and from them that a word decodes to a command exactly when it is the command's encoding. -/

namespace Sys2Proof

/-! ### The commands by their format -/

/-- The commands by their format. A WR or IO command is what the decoder's table holds at the selector of the command's
row. -/
inductive InFormat : Instr → Prop where
  | wr {i : Instr} (h d : Byte) (hi : decodeWr (fieldSel (rowMatch i)) h d = some i) : InFormat i
  | io {i : Instr} (h : Byte) (p : F32) (hi : decodeIo (fieldSel (rowMatch i)) h p = some i) : InFormat i
  | noteOn (key : Key) (vel : Velocity) : InFormat (.noteOn key vel)
  | noteOff (key : Key) (vel : Velocity) : InFormat (.noteOff key vel)
  | ctrlChange (idx : BitVec 7) (val : BitVec 14) : InFormat (.ctrlChange idx val)
  | clk : InFormat .clk

theorem Instr.inFormat (i : Instr) : InFormat i := by
  cases i with
  | noteOn key vel => exact .noteOn key vel
  | noteOff key vel => exact .noteOff key vel
  | ctrlChange idx val => exact .ctrlChange idx val
  | clk => exact .clk
  | create h p => exact .io h p (by simp only [rowMatch]; rfl)
  | destroy h p => exact .io h p (by simp only [rowMatch]; rfl)
  | advance h p => exact .io h p (by simp only [rowMatch]; rfl)
  | setGain h p => exact .io h p (by simp only [rowMatch]; rfl)
  | setDetune h p => exact .io h p (by simp only [rowMatch]; rfl)
  | setLeakage h p => exact .io h p (by simp only [rowMatch]; rfl)
  | setSnr h p => exact .io h p (by simp only [rowMatch]; rfl)
  | setDcbias h p => exact .io h p (by simp only [rowMatch]; rfl)
  | setPolemix h p => exact .io h p (by simp only [rowMatch]; rfl)
  | setClockrate h p => exact .io h p (by simp only [rowMatch]; rfl)
  | _ h d => exact .wr h d (by simp only [rowMatch]; rfl)

/-- The table of WR addresses against the encoder and the opcode map. -/
theorem decodeWr_eq_some {a h d : Byte} {i : Instr} (hi : decodeWr a h d = some i) :
    encode i = encodeWr a h d ∧ rowMatch i = a.setWidth 64 <<< 40 ∧ rowMask i = 0xFF00FFFFFFFFFF00#64 := by
  have ha : a = BitVec.ofNat 8 a.toNat := by simp
  unfold decodeWr at hi
  generalize a.toNat = n at ha hi
  subst ha
  split at hi <;> cases hi <;> exact ⟨rfl, rfl, rfl⟩

/-- The table of IO ids against the encoder and the opcode map. -/
theorem decodeIo_eq_some {c h : Byte} {p : F32} {i : Instr} (hi : decodeIo c h p = some i) :
    encode i = encodeIo c h p ∧ rowMatch i = (c.setWidth 64 <<< 40) ||| 0x1000000000000000#64
      ∧ rowMask i = 0xFF00FFFF00000000#64 := by
  have hc : c = BitVec.ofNat 8 c.toNat := by simp
  unfold decodeIo at hi
  generalize c.toNat = n at hc hi
  subst hc
  split at hi <;> cases hi <;> exact ⟨rfl, rfl, rfl⟩

/-- Which addresses name a command does not depend on the operands (R82). -/
theorem decodeWr_isSome (a h d : Byte) : (decodeWr a h d).isSome = decide (a.toNat ≤ 0x1D) := by
  unfold decodeWr
  split <;> simp_all
  omega

/-- Which ids name a command does not depend on the operands (R83). -/
theorem decodeIo_isSome (c h : Byte) (p : F32) : (decodeIo c h p).isSome = decide (c.toNat ≤ 9) := by
  unfold decodeIo
  split <;> simp_all
  omega

/-! ### The payloads of the events (R85) -/

theorem notePayloadOk_iff {p : BitVec 32} :
    notePayloadOk p = true ↔ p.extractLsb' 7 1 = 0#1 ∧ p.extractLsb' 15 17 = 0#17 := by
  simp [notePayloadOk]

theorem ctrlPayloadOk_iff {p : BitVec 32} :
    ctrlPayloadOk p = true ↔ p.extractLsb' 14 2 = 0#2 ∧ p.extractLsb' 23 9 = 0#9 := by
  simp [ctrlPayloadOk]

/-- A note payload with its must-be-zero bits zero is made of velocity and key. -/
theorem notePayload_fields {p : BitVec 32} (h : notePayloadOk p = true) :
    0#17 ++ payloadVel p ++ 0#1 ++ payloadKey p = p := by
  obtain ⟨h7, h15⟩ := notePayloadOk_iff.1 h
  rw [← h7, ← h15, payloadVel, payloadKey]
  repeat rw [BitVec.extractLsb'_append_extractLsb'_eq_extractLsb' (by rfl)]
  exact BitVec.extractLsb'_eq_self

/-- A controller payload with its must-be-zero bits zero is made of index and value. -/
theorem ctrlPayload_fields {p : BitVec 32} (h : ctrlPayloadOk p = true) :
    0#9 ++ payloadIdx p ++ 0#2 ++ payloadVal p = p := by
  obtain ⟨h14, h23⟩ := ctrlPayloadOk_iff.1 h
  rw [← h14, ← h23, payloadIdx, payloadVal]
  repeat rw [BitVec.extractLsb'_append_extractLsb'_eq_extractLsb' (by rfl)]
  exact BitVec.extractLsb'_eq_self

section NotePayload

variable (key : Key) (vel : Velocity)

@[simp] theorem payloadKey_note : payloadKey (0#17 ++ vel ++ 0#1 ++ key) = key := BitVec.extractLsb'_append_eq_right

@[simp] theorem payloadVel_note : payloadVel (0#17 ++ vel ++ 0#1 ++ key) = vel :=
  (BitVec.extractLsb'_append_eq_of_le (by decide)).trans
    ((BitVec.extractLsb'_append_eq_of_le (by decide)).trans BitVec.extractLsb'_append_eq_right)

@[simp] theorem notePayloadOk_note : notePayloadOk (0#17 ++ vel ++ 0#1 ++ key) = true :=
  notePayloadOk_iff.2
    ⟨(BitVec.extractLsb'_append_eq_of_le (by decide)).trans BitVec.extractLsb'_append_eq_right,
      (BitVec.extractLsb'_append_eq_of_le (by decide)).trans
        ((BitVec.extractLsb'_append_eq_of_le (by decide)).trans BitVec.extractLsb'_append_eq_left)⟩

end NotePayload

section CtrlPayload

variable (idx : BitVec 7) (val : BitVec 14)

@[simp] theorem payloadVal_ctrl : payloadVal (0#9 ++ idx ++ 0#2 ++ val) = val := BitVec.extractLsb'_append_eq_right

@[simp] theorem payloadIdx_ctrl : payloadIdx (0#9 ++ idx ++ 0#2 ++ val) = idx :=
  (BitVec.extractLsb'_append_eq_of_le (by decide)).trans
    ((BitVec.extractLsb'_append_eq_of_le (by decide)).trans BitVec.extractLsb'_append_eq_right)

@[simp] theorem ctrlPayloadOk_ctrl : ctrlPayloadOk (0#9 ++ idx ++ 0#2 ++ val) = true :=
  ctrlPayloadOk_iff.2
    ⟨(BitVec.extractLsb'_append_eq_of_le (by decide)).trans BitVec.extractLsb'_append_eq_right,
      (BitVec.extractLsb'_append_eq_of_le (by decide)).trans
        ((BitVec.extractLsb'_append_eq_of_le (by decide)).trans BitVec.extractLsb'_append_eq_left)⟩

end CtrlPayload

/-- An event decoded from a kind and a payload has the EV word of both. -/
theorem decodeEv_eq_some {kind : Byte} {p : BitVec 32} {i : Instr} (hi : decodeEv kind p = some i) :
    encode i = mkWord 2#4 0#8 kind p := by
  have hkind : kind = BitVec.ofNat 8 kind.toNat := by simp
  unfold decodeEv at hi
  generalize kind.toNat = n at hkind hi
  subst hkind
  split at hi
  · obtain ⟨hok, rfl⟩ : notePayloadOk p = true ∧ Instr.noteOn (payloadKey p) (payloadVel p) = i := by simpa using hi
    exact congrArg (mkWord 2#4 0#8 0#8) (notePayload_fields hok)
  · obtain ⟨hok, rfl⟩ : notePayloadOk p = true ∧ Instr.noteOff (payloadKey p) (payloadVel p) = i := by simpa using hi
    exact congrArg (mkWord 2#4 0#8 1#8) (notePayload_fields hok)
  · obtain ⟨hok, rfl⟩ : ctrlPayloadOk p = true ∧ Instr.ctrlChange (payloadIdx p) (payloadVal p) = i := by simpa using hi
    exact congrArg (mkWord 2#4 0#8 2#8) (ctrlPayload_fields hok)
  · cases hi

/-! ### Decoder and encoder -/

/-- A WR payload with its must-be-zero bits zero is the data byte. -/
theorem payload_lowByte {p : BitVec 32} (h : p.extractLsb' 8 24 = 0#24) : 0#24 ++ p.extractLsb' 0 8 = p := by
  rw [← h, BitVec.extractLsb'_append_extractLsb'_eq_extractLsb' (by rfl)]
  exact BitVec.extractLsb'_eq_self

theorem decode_encodeWr {a h d : Byte} {i : Instr} (hi : decodeWr a h d = some i) : decode (encodeWr a h d) = .ok i := by
  have hz : (0#24 ++ d).extractLsb' 8 24 = 0#24 := BitVec.extractLsb'_append_eq_left
  have hd : (0#24 ++ d).extractLsb' 0 8 = d := BitVec.extractLsb'_append_eq_right
  rw [encodeWr, decode_mkWord_wr, if_pos hz, hd, hi, Option.elim]

theorem decode_encodeIo {c h : Byte} {p : F32} {i : Instr} (hi : decodeIo c h p = some i) :
    decode (encodeIo c h p) = .ok i := by
  rw [encodeIo, decode_mkWord_io, hi, orBadCmd]

theorem decode_ev {kind : Byte} {p : BitVec 32} {i : Instr} (hi : decodeEv kind p = some i) :
    decode (mkWord 2#4 0#8 kind p) = .ok i := by
  rw [decode_mkWord_ev, if_pos rfl, hi, orBadCmd]

/-- Settles O11: format by format (R82, R83, R85, R86), every operand comes back from its field. -/
theorem decodingAnEncodedCommandGivesItBack : Obligations.DecodingAnEncodedCommandGivesItBack := by
  intro i
  cases i.inFormat with
  | wr h d hi => rw [(decodeWr_eq_some hi).1, decode_encodeWr hi]
  | io h p hi => rw [(decodeIo_eq_some hi).1, decode_encodeIo hi]
  | noteOn key vel => exact decode_ev (by simp [decodeEv])
  | noteOff key vel => exact decode_ev (by simp [decodeEv])
  | ctrlChange idx val => exact decode_ev (by simp [decodeEv])
  | clk => rfl

/-- What the decoder makes of a word: a failure of the word's class, an address that names no register, or the command
whose encoding the word is. -/
theorem decode_cases (w : CmdWord) :
    decode w = .error (.badCmd (classOf w)) ∨ (classOf w = .wr ∧ ∃ h, decode w = .error (.badAddr h)) ∨
    ∃ i, decode w = .ok i ∧ encode i = w := by
  obtain ⟨hk, hc⟩ | ⟨hk, hc⟩ | ⟨hk, hc⟩ | ⟨hk, hc⟩ | ⟨-, hc⟩ := classOf_cases w
  · obtain hbad | ⟨h, a, p, rfl⟩ := decode_badCmd_or_fields hk
    · exact .inl hbad
    · rw [decode_mkWord_wr, hc]
      split
      · next hz =>
        cases hi : decodeWr a h (p.extractLsb' 0 8) with
        | none => exact .inr (.inl ⟨rfl, h, rfl⟩)
        | some i => exact .inr (.inr ⟨i, rfl, by rw [(decodeWr_eq_some hi).1, encodeWr, payload_lowByte hz]⟩)
      · exact .inl rfl
  · obtain hbad | ⟨h, c, p, rfl⟩ := decode_badCmd_or_fields hk
    · exact .inl hbad
    · rw [decode_mkWord_io, hc]
      cases hi : decodeIo c h p with
      | none => exact .inl rfl
      | some i => exact .inr (.inr ⟨i, rfl, (decodeIo_eq_some hi).1⟩)
  · obtain hbad | ⟨h, kind, p, rfl⟩ := decode_badCmd_or_fields hk
    · exact .inl hbad
    · rw [decode_mkWord_ev, hc]
      split
      · next hh =>
        cases hi : decodeEv kind p with
        | none => exact .inl rfl
        | some i => exact .inr (.inr ⟨i, rfl, by rw [decodeEv_eq_some hi, hh]⟩)
      · exact .inl rfl
  · obtain hbad | ⟨h, sel, p, rfl⟩ := decode_badCmd_or_fields hk
    · exact .inl hbad
    · rw [decode_mkWord_clk, hc]
      split
      · next hz =>
        obtain ⟨rfl, rfl, rfl⟩ := hz
        exact .inr (.inr ⟨.clk, rfl, rfl⟩)
      · exact .inl rfl
  · exact .inl (decode_of_reservedClass hc)

/-- A word decodes to a command exactly when it is the command's encoding: a command has one word. -/
theorem decode_eq_ok_iff {w : CmdWord} {i : Instr} : decode w = .ok i ↔ encode i = w := by
  constructor
  · intro hd
    obtain he | ⟨-, h, he⟩ | ⟨j, hj, rfl⟩ := decode_cases w
    · cases he.symm.trans hd
    · cases he.symm.trans hd
    · cases hj.symm.trans hd; rfl
  · rintro rfl
    exact decodingAnEncodedCommandGivesItBack i

/-- Settles O10: each word is the encoding of its command. -/
theorem writtenWordsDecode : Obligations.WrittenWordsDecode :=
  ⟨decode_eq_ok_iff.2 rfl, decode_eq_ok_iff.2 rfl, decode_eq_ok_iff.2 rfl, decode_eq_ok_iff.2 rfl, decode_eq_ok_iff.2 rfl,
    decode_eq_ok_iff.2 rfl, decode_eq_ok_iff.2 rfl, decode_eq_ok_iff.2 rfl, decode_eq_ok_iff.2 rfl, decode_eq_ok_iff.2 rfl⟩

/-! ### The rows of the opcode map (R99) -/

/-- The word of a command lies in the command's row. -/
theorem encode_inRow (i : Instr) : encode i &&& rowMask i = rowMatch i := by
  cases i.inFormat with
  | wr h d hi =>
    obtain ⟨henc, hmatch, hmask⟩ := decodeWr_eq_some hi
    rw [henc, hmask, encodeWr_and_mask, ← hmatch]
  | io h p hi =>
    obtain ⟨henc, hmatch, hmask⟩ := decodeIo_eq_some hi
    rw [henc, hmask, encodeIo_and_mask, ← hmatch]
  | noteOn key vel => exact Laws.EncodesInRow.noteOn key vel
  | noteOff key vel => exact Laws.EncodesInRow.noteOff key vel
  | ctrlChange idx val => exact Laws.EncodesInRow.ctrlChange idx val
  | clk => exact Laws.EncodesInRow.clk

/-- Words that agree under a mask agree in every part of the word that the mask holds whole. -/
theorem extractLsb'_of_and_eq {w v m : CmdWord} (h : w &&& m = v &&& m) {start len : ℕ}
    (hm : m.extractLsb' start len = BitVec.allOnes len) : w.extractLsb' start len = v.extractLsb' start len := by
  have := congrArg (BitVec.extractLsb' start len) h
  rwa [BitVec.extractLsb'_and, BitVec.extractLsb'_and, hm, BitVec.and_allOnes, BitVec.and_allOnes] at this

/-- The payload of a word under a mask that agrees with `mkWord cls h sel p`. -/
theorem payload_of_and_eq {w m : CmdWord} {cls : BitVec 4} {h sel : Byte} {p : BitVec 32}
    (hw : w &&& m = mkWord cls h sel p &&& m) {start len : ℕ} (hlen : start + len ≤ 32)
    (hm : m.extractLsb' start len = BitVec.allOnes len) :
    (fieldPayload w).extractLsb' start len = p.extractLsb' start len := by
  rw [← extractLsb'_mkWord_payload cls h sel p hlen, ← extractLsb'_of_and_eq hw hm, extractLsb'_fieldPayload w hlen]

/-- A word that agrees with `mkWord cls h sel p` in class, reserved fields and selector is such a word. -/
theorem eq_mkWord_of_and_eq {w m : CmdWord} {cls : BitVec 4} {h sel : Byte} {p : BitVec 32}
    (hw : w &&& m = mkWord cls h sel p &&& m) (hm : m &&& 0xFF00FFFF00000000#64 = 0xFF00FFFF00000000#64) :
    w = mkWord cls (fieldHandle w) sel (fieldPayload w) := by
  have part {start len : ℕ}
      (hs : (0xFF00FFFF00000000#64).extractLsb' start len = BitVec.allOnes len) :
      w.extractLsb' start len = (mkWord cls h sel p).extractLsb' start len := by
    refine extractLsb'_of_and_eq hw ?_
    rw [← BitVec.and_allOnes (x := m.extractLsb' start len), ← hs, ← BitVec.extractLsb'_and, hm]
  have hcls : fieldClass w = cls := (part (by decide)).trans (fieldClass_mkWord ..)
  have hA : fieldRsvA w = 0#4 := (part (by decide)).trans (fieldRsvA_mkWord ..)
  have hsel : fieldSel w = sel := (part (by decide)).trans (fieldSel_mkWord ..)
  have hB : fieldRsvB w = 0#8 := (part (by decide)).trans (fieldRsvB_mkWord ..)
  rw [← hcls, ← hsel, mkWord_fields hA hB]

/-- A word in the row of a WR address is a WR word of that address (R82). -/
theorem exists_encodeWr {w : CmdWord} {a : Byte} (hw : w &&& 0xFF00FFFFFFFFFF00#64 = a.setWidth 64 <<< 40) :
    ∃ h d, w = encodeWr a h d := by
  have hw' := hw.trans (encodeWr_and_mask a 0#8 0#8).symm
  have hz : (fieldPayload w).extractLsb' 8 24 = 0#24 := payload_of_and_eq hw' (by decide) (by decide)
  exact ⟨fieldHandle w, (fieldPayload w).extractLsb' 0 8,
    (eq_mkWord_of_and_eq hw' (by decide)).trans (congrArg _ (payload_lowByte hz).symm)⟩

/-- A word in the row of an IO id is an IO word of that id (R83). -/
theorem exists_encodeIo {w : CmdWord} {c : Byte}
    (hw : w &&& 0xFF00FFFF00000000#64 = (c.setWidth 64 <<< 40) ||| 0x1000000000000000#64) : ∃ h p, w = encodeIo c h p :=
  ⟨_, _, eq_mkWord_of_and_eq (hw.trans (encodeIo_and_mask c 0#8 0#32).symm) (by decide)⟩

/-- A word in the row of a note event is a word of that kind of event (R85). -/
theorem exists_encodeNote {w : CmdWord} {kind : Byte}
    (hw : w &&& 0xFFFFFFFFFFFF8080#64 = (kind.setWidth 64 <<< 40) ||| 0x2000000000000000#64) :
    ∃ key vel, w = encodeNote kind key vel := by
  have hw' := hw.trans (encodeNote_and_mask kind 0#7 0#7).symm
  have hh : fieldHandle w = 0#8 := (extractLsb'_of_and_eq hw' (by decide)).trans (fieldHandle_mkWord ..)
  have hok : notePayloadOk (fieldPayload w) = true := notePayloadOk_iff.2
    ⟨payload_of_and_eq hw' (by decide) (by decide), payload_of_and_eq hw' (by decide) (by decide)⟩
  refine ⟨payloadKey (fieldPayload w), payloadVel (fieldPayload w), ?_⟩
  rw [encodeNote, notePayload_fields hok, ← hh]
  exact eq_mkWord_of_and_eq hw' (by decide)

/-- A word in the row of the controller change is a word of a controller change (R85). -/
theorem exists_encodeCtrl {w : CmdWord} (hw : w &&& 0xFFFFFFFFFF80C000#64 = 0x2000020000000000#64) :
    ∃ idx val, w = encodeCtrl idx val := by
  have hw' := hw.trans (encodeCtrl_and_mask 0#7 0#14).symm
  have hh : fieldHandle w = 0#8 := (extractLsb'_of_and_eq hw' (by decide)).trans (fieldHandle_mkWord ..)
  have hok : ctrlPayloadOk (fieldPayload w) = true := ctrlPayloadOk_iff.2
    ⟨payload_of_and_eq hw' (by decide) (by decide), payload_of_and_eq hw' (by decide) (by decide)⟩
  refine ⟨payloadIdx (fieldPayload w), payloadVal (fieldPayload w), ?_⟩
  rw [encodeCtrl, ctrlPayload_fields hok, ← hh]
  exact eq_mkWord_of_and_eq hw' (by decide)

/-- A word in the row of a command is the encoding of a command of the same row. -/
theorem exists_encode_of_inRow {w : CmdWord} {i : Instr} (hw : w &&& rowMask i = rowMatch i) :
    ∃ j, encode j = w ∧ rowMatch j = rowMatch i ∧ rowMask j = rowMask i := by
  cases i.inFormat with
  | wr h d hi =>
    obtain ⟨-, hmatch, hmask⟩ := decodeWr_eq_some hi
    obtain ⟨h', d', rfl⟩ := exists_encodeWr (by rw [← hmask, hw]; exact hmatch)
    obtain ⟨j, hj⟩ := Option.isSome_iff_exists.1
      (((decodeWr_isSome _ h' d').trans (decodeWr_isSome _ h d).symm).trans (Option.isSome_of_eq_some hi))
    obtain ⟨hencj, hmatchj, hmaskj⟩ := decodeWr_eq_some hj
    exact ⟨j, hencj, hmatchj.trans hmatch.symm, hmaskj.trans hmask.symm⟩
  | io h p hi =>
    obtain ⟨-, hmatch, hmask⟩ := decodeIo_eq_some hi
    obtain ⟨h', p', rfl⟩ := exists_encodeIo (by rw [← hmask, hw]; exact hmatch)
    obtain ⟨j, hj⟩ := Option.isSome_iff_exists.1
      (((decodeIo_isSome _ h' p').trans (decodeIo_isSome _ h p).symm).trans (Option.isSome_of_eq_some hi))
    obtain ⟨hencj, hmatchj, hmaskj⟩ := decodeIo_eq_some hj
    exact ⟨j, hencj, hmatchj.trans hmatch.symm, hmaskj.trans hmask.symm⟩
  | noteOn key vel =>
    obtain ⟨key', vel', rfl⟩ := exists_encodeNote (kind := 0#8) hw
    exact ⟨.noteOn key' vel', rfl, rfl, rfl⟩
  | noteOff key vel =>
    obtain ⟨key', vel', rfl⟩ := exists_encodeNote (kind := 1#8) hw
    exact ⟨.noteOff key' vel', rfl, rfl, rfl⟩
  | ctrlChange idx val =>
    obtain ⟨idx', val', rfl⟩ := exists_encodeCtrl hw
    exact ⟨.ctrlChange idx' val', rfl, rfl, rfl⟩
  | clk => exact ⟨.clk, (hw.symm.trans (BitVec.and_allOnes (x := w))), rfl, rfl⟩

/-- Settles O12: a decoded word is its command's encoding, so it lies in the command's row; a word in a row is the encoding
of a command of the row, and a word is the encoding of one command only, so no two rows share it. -/
theorem decoderAcceptsExactlyTheOpcodeMap : Obligations.DecoderAcceptsExactlyTheOpcodeMap := by
  refine ⟨fun w i hd => decode_eq_ok_iff.1 hd, fun w i hd => ?_, fun w i hw => ?_, fun w i j hi hj => ?_⟩
  · rw [← decode_eq_ok_iff.1 hd, encode_inRow]
  · obtain ⟨j, hj, hrow⟩ := exists_encode_of_inRow hw
    exact ⟨j, decode_eq_ok_iff.2 hj, hrow⟩
  · obtain ⟨i', hi', hmatch, hmask⟩ := exists_encode_of_inRow hi
    obtain ⟨j', hj', hmatch', hmask'⟩ := exists_encode_of_inRow hj
    obtain rfl : i' = j' := Except.ok.inj ((decode_eq_ok_iff.2 hi').symm.trans (decode_eq_ok_iff.2 hj'))
    exact ⟨hmatch.symm.trans hmatch', hmask.symm.trans hmask'⟩

end Sys2Proof
end

section
/-! PROOFS. What a word that is no command answers (R81, R100), and the responses of a command by its class (R84). -/

namespace Sys2Proof.Machine

open Sys2Proof

/-! ### Malformed words (R81) -/

/-- The sentinel of the decoder's class is that of the word's class field (R84). -/
theorem sentinel_classOf (w : CmdWord) : sentinel (classOf w) = wordSentinel w := by
  unfold classOf wordSentinel
  generalize fieldClass w = k
  revert k
  decide

theorem perform_of_badCmd {w : CmdWord} (h : decode w = .error (.badCmd (classOf w))) (s : State) :
    perform w s = .next (s.failed .badCmd (wordSentinel w)) := by
  rw [← sentinel_classOf, perform, h]; rfl

theorem decode_wr_of_payload {w : CmdWord} (hk : fieldClass w = 0#4) (h : w.extractLsb' 8 24 ≠ 0#24) :
    decode w = .error (.badCmd (classOf w)) := by
  obtain hbad | ⟨a, sel, p, rfl⟩ := decode_badCmd_or_fields hk
  · exact hbad
  · rw [extractLsb'_mkWord_payload _ _ _ _ (by decide)] at h
    rw [decode_mkWord_wr, if_neg h, classOf_of_wr hk]

theorem decode_io_of_id {w : CmdWord} (hk : fieldClass w = 1#4) (h : 9 < (fieldSel w).toNat) :
    decode w = .error (.badCmd (classOf w)) := by
  obtain hbad | ⟨a, sel, p, rfl⟩ := decode_badCmd_or_fields hk
  · exact hbad
  · have hnone : decodeIo sel a p = none := by
      rw [← Option.not_isSome_iff_eq_none, decodeIo_isSome]
      simpa using h
    rw [decode_mkWord_io, hnone, classOf_of_io hk, orBadCmd]

/-- An EV word without a handle whose kind and payload the decoder refuses. -/
theorem decode_ev_of_none {w : CmdWord} (hk : fieldClass w = 2#4)
    (h : fieldHandle w ≠ 0#8 ∨ decodeEv (fieldSel w) (fieldPayload w) = none) :
    decode w = .error (.badCmd (classOf w)) := by
  obtain hbad | ⟨a, kind, p, rfl⟩ := decode_badCmd_or_fields hk
  · exact hbad
  · rw [fieldHandle_mkWord, fieldSel_mkWord, fieldPayload_mkWord] at h
    rw [decode_mkWord_ev, classOf_of_ev hk]
    split
    · next ha =>
      obtain ha' | hnone := h
      · exact absurd ha ha'
      · rw [hnone, orBadCmd]
    · rfl

theorem decodeEv_of_kind {kind : Byte} (p : BitVec 32) (h : 2 < kind.toNat) : decodeEv kind p = none := by
  unfold decodeEv
  split
  · omega
  · omega
  · omega
  · rfl

theorem decodeEv_of_note {kind : Byte} {p : BitVec 32} (hkind : kind.toNat < 2)
    (h : p.extractLsb' 7 1 ≠ 0#1 ∨ p.extractLsb' 15 17 ≠ 0#17) : decodeEv kind p = none := by
  have hbad : ¬notePayloadOk p = true :=
    fun hok => h.elim (absurd (notePayloadOk_iff.1 hok).1) (absurd (notePayloadOk_iff.1 hok).2)
  unfold decodeEv
  split
  · exact if_neg hbad
  · exact if_neg hbad
  · omega
  · rfl

theorem decodeEv_of_ctrl {p : BitVec 32} (h : p.extractLsb' 14 2 ≠ 0#2 ∨ p.extractLsb' 23 9 ≠ 0#9) :
    decodeEv 2#8 p = none :=
  if_neg fun hok => h.elim (absurd (ctrlPayloadOk_iff.1 hok).1) (absurd (ctrlPayloadOk_iff.1 hok).2)

theorem decode_clk_of_nonzero {w : CmdWord} (hk : fieldClass w = 3#4) (h : w.extractLsb' 0 56 ≠ 0#56) :
    decode w = .error (.badCmd (classOf w)) := by
  obtain hbad | ⟨a, sel, p, rfl⟩ := decode_badCmd_or_fields hk
  · exact hbad
  · have hne : ¬(a = 0#8 ∧ sel = 0#8 ∧ p = 0#32) := by
      rintro ⟨rfl, rfl, rfl⟩
      exact h (by decide)
    rw [decode_mkWord_clk, if_neg hne, classOf_of_clk hk]

/-- Settles O4: each cause of R81 is an error of the decoder, and performing the word is the failure. -/
theorem malformedWordsFailWithBadCmd : Obligations.MalformedWordsFailWithBadCmd := by
  intro s s' w hnext hcause
  rw [step_of_commandNext hnext]
  refine perform_of_badCmd ?_ s'
  obtain hcls | hrsv | ⟨hk, hp⟩ | ⟨hk, hid⟩ | ⟨hk, hh | hkind⟩ | ⟨hk, hkind, hp⟩ | ⟨hk, hkind, hp⟩ | ⟨hk, hp⟩ :=
    hcause
  · exact decode_of_reservedClass (classOf_of_reserved hcls)
  · exact decode_of_reservedField hrsv
  · exact decode_wr_of_payload hk hp
  · exact decode_io_of_id hk hid
  · exact decode_ev_of_none hk (.inl hh)
  · exact decode_ev_of_none hk (.inr (decodeEv_of_kind _ hkind))
  · rw [← extractLsb'_fieldPayload w (by decide), ← extractLsb'_fieldPayload w (by decide)] at hp
    exact decode_ev_of_none hk (.inr (decodeEv_of_note hkind hp))
  · rw [← extractLsb'_fieldPayload w (by decide), ← extractLsb'_fieldPayload w (by decide)] at hp
    exact decode_ev_of_none hk (.inr (hkind ▸ decodeEv_of_ctrl hp))
  · exact decode_clk_of_nonzero hk hp

/-! ### Responses (R84) -/

/-- The responses a word of a class can have: its failure, or what the class answers on success. -/
inductive ResponseForm (blockSize : ℕ) : CmdClass → List Response → Prop where
  | fail (cls : CmdClass) (code : FailCode) : ResponseForm blockSize cls [.fail code (sentinel cls)]
  | wr (b : Byte) : ResponseForm blockSize .wr [.ok (b.setWidth 32)]
  | io (v : F32) : ResponseForm blockSize .io [.ok v]
  | ev : ResponseForm blockSize .ev [.ok 0#32]
  | clk {l : List F32} (hl : l.length = blockSize) : ResponseForm blockSize .clk (l.map .ok)

/-- The outcome `o` is a next state whose responses have the form of class `cls`. -/
abbrev AnswersAs (blockSize : ℕ) (cls : CmdClass) (o : Host.Outcome State Fault Refusal) : Prop :=
  ∃ t, o = .next t ∧ ResponseForm blockSize cls t.rsp

theorem failWith_answersAs (n : ℕ) (s : State) (cls : CmdClass) (code : FailCode) :
    AnswersAs n cls (failWith s cls code) := ⟨_, failWith_eq s cls code, .fail cls code⟩

theorem rejectWord_badAddr_answersAs (n : ℕ) (h : Byte) (s : State) : AnswersAs n .wr (rejectWord (.badAddr h) s) := by
  unfold rejectWord
  dsimp only
  split
  · exact failWith_answersAs n s .wr .badHandle
  · exact failWith_answersAs n s .wr .badAddr

theorem wrCommand_answersAs (n : ℕ) (r : Reg) (h d : Byte) (s : State) : AnswersAs n .wr (wrCommand r h d s) := by
  obtain ⟨-, heq⟩ | ⟨m, c, -, heq⟩ := wrCommand_cases r h d s
  · exact ⟨_, heq, .fail .wr .badHandle⟩
  · exact ⟨_, heq, .wr _⟩

theorem ioCommand_answersAs (n : ℕ) (f : Chip → Chip × F32) (h : Byte) (s : State) :
    AnswersAs n .io (ioCommand f h s) := by
  obtain ⟨-, heq⟩ | ⟨m, c, -, heq⟩ := ioCommand_cases f h s
  · exact ⟨_, heq, .fail .io .badHandle⟩
  · exact ⟨_, heq, .io _⟩

theorem execCreate_answersAs (n : ℕ) (h : Byte) (p : F32) (s : State) : AnswersAs n .io (execCreate h p s) := by
  unfold execCreate
  split
  · exact failWith_answersAs n s .io .poolFull
  · exact ⟨_, rfl, .io _⟩

theorem execDestroy_answersAs (n : ℕ) (h : Byte) (p : F32) (s : State) : AnswersAs n .io (execDestroy h p s) := by
  unfold execDestroy
  split
  · exact failWith_answersAs n s .io .badHandle
  · exact ⟨_, rfl, .io _⟩

theorem evCommand_answersAs (n : ℕ) (f : Engine → Engine) (s : State) : AnswersAs n .ev (evCommand f s) := by
  obtain hb | ⟨a, m, hp⟩ := pair_or_broken s
  · exact ⟨_, evCommand_of_broken f hb, .fail .ev .badHandle⟩
  · exact ⟨_, evCommand_of_pair f hp, .ev⟩

theorem execCtrlChange_answersAs (n : ℕ) (idx : BitVec 7) (val : BitVec 14) (s : State) :
    AnswersAs n .ev (execCtrlChange idx val s) := by
  unfold execCtrlChange
  split
  · exact failWith_answersAs n s .ev .badCtrl
  · exact evCommand_answersAs n _ s

/-- A block has as many samples as it has ticks (R265), where the block size is a multiple of a sub-block's (U42). -/
theorem runBlock_length {c : Cfg} (hc : c.wf) (e : Engine) : (runBlock c e).2.length = c.blockSize := by
  obtain ⟨-, -, hdvd⟩ := hc
  rw [runBlock, subBlocks_length, show subblock = 16 from rfl]
  omega

theorem execClk_answersAs {s : State} (hc : s.cfg.wf) : AnswersAs s.cfg.blockSize .clk (execClk s) := by
  obtain hb | ⟨a, m, hp⟩ := pair_or_broken s
  · exact ⟨_, execClk_of_broken hb, .fail .clk .badHandle⟩
  · exact ⟨_, execClk_of_pair hp, .clk (runBlock_length hc _)⟩

/-- Each command answers in the form of its word's class. -/
theorem exec_answersAs {s : State} (hc : s.cfg.wf) (i : Instr) :
    AnswersAs s.cfg.blockSize (classOf (encode i)) (exec i s) := by
  cases i with
  | create h p => exact classOf_mkWord_io .. ▸ execCreate_answersAs _ h p s
  | destroy h p => exact classOf_mkWord_io .. ▸ execDestroy_answersAs _ h p s
  | advance h p => exact classOf_mkWord_io .. ▸ ioCommand_answersAs _ _ h s
  | setGain h p => exact classOf_mkWord_io .. ▸ ioCommand_answersAs _ _ h s
  | setDetune h p => exact classOf_mkWord_io .. ▸ ioCommand_answersAs _ _ h s
  | setLeakage h p => exact classOf_mkWord_io .. ▸ ioCommand_answersAs _ _ h s
  | setSnr h p => exact classOf_mkWord_io .. ▸ ioCommand_answersAs _ _ h s
  | setDcbias h p => exact classOf_mkWord_io .. ▸ ioCommand_answersAs _ _ h s
  | setPolemix h p => exact classOf_mkWord_io .. ▸ ioCommand_answersAs _ _ h s
  | setClockrate h p => exact classOf_mkWord_io .. ▸ ioCommand_answersAs _ _ h s
  | noteOn key vel => exact classOf_mkWord_ev .. ▸ evCommand_answersAs _ _ s
  | noteOff key vel => exact classOf_mkWord_ev .. ▸ evCommand_answersAs _ _ s
  | ctrlChange idx val => exact classOf_mkWord_ev .. ▸ execCtrlChange_answersAs _ idx val s
  | clk => exact execClk_answersAs hc
  | _ h d => exact classOf_mkWord_wr .. ▸ wrCommand_answersAs _ _ h d s

/-- So does every word. -/
theorem perform_answersAs {s : State} (hc : s.cfg.wf) (w : CmdWord) :
    AnswersAs s.cfg.blockSize (classOf w) (perform w s) := by
  obtain hd | ⟨hwr, h, hd⟩ | ⟨i, hd, rfl⟩ := decode_cases w
  · rw [perform, hd]
    exact failWith_answersAs _ s (classOf w) .badCmd
  · rw [perform, hd, hwr]
    exact rejectWord_badAddr_answersAs _ h s
  · rw [perform, hd]
    exact exec_answersAs hc i

/-- Settles O6: the form of the word's class, read off for each value of the class field. -/
theorem responsesHaveTheFormOfTheirClass : Obligations.ResponsesHaveTheFormOfTheirClass := by
  refine ⟨fun _ => rfl, fun _ _ => rfl, fun s s' w hnext hc => ?_⟩
  have hcfg : s'.cfg = s.cfg := by rw [hnext.2.2]
  obtain ⟨t, hperform, hform⟩ := perform_answersAs (s := s') (by rwa [hcfg]) w
  rw [hcfg] at hform
  refine ⟨t, (step_of_commandNext hnext).trans hperform, fun hk => ?_, fun hk => ?_, fun hk => ?_, fun hk => ?_,
    fun hk => ?_⟩
  all_goals generalize t.rsp = rsp at hform ⊢
  · rw [classOf_of_wr hk] at hform
    cases hform with
    | fail _ code => exact .inr ⟨code, rfl⟩
    | wr b => exact .inl ⟨b, rfl⟩
  · rw [classOf_of_io hk] at hform
    cases hform with
    | fail _ code => exact .inr ⟨code, rfl⟩
    | io v => exact .inl ⟨v, rfl⟩
  · rw [classOf_of_ev hk] at hform
    cases hform with
    | fail _ code => exact .inr ⟨code, rfl⟩
    | ev => exact .inl rfl
  · rw [classOf_of_clk hk] at hform
    cases hform with
    | fail _ code => exact .inr ⟨code, rfl⟩
    | clk hl => exact .inl ⟨_, hl, rfl⟩
  · rw [classOf_of_reserved hk] at hform
    cases hform with
    | fail _ code => exact ⟨code, rfl⟩

end Sys2Proof.Machine
end

section
/-! PROOFS. Noninterference (R101, R137, R138, R350): chips that agree but for the bits no rule reads stay so through every
step of a tick. -/

namespace Sys2Proof.Machine

open Sys2Proof

/-! ### Agreement on the bits that are read -/

/-- Two chips that agree in all a tick reads: everything but the sample and the unread bits of the registers. -/
structure SameRead (c b : Chip) : Prop where
  voices : c.voices = b.voices
  params : c.params = b.params
  filter : c.filter = b.filter
  regs : ∀ a : Fin 32, c.regs[a] &&& ~~~(unreadBits a.val) = b.regs[a] &&& ~~~(unreadBits a.val)

/-- Bytes that agree outside a mask agree in every bit the mask leaves free. -/
theorem getLsbD_of_masked {x y m : Byte} (h : x &&& ~~~m = y &&& ~~~m) {i : ℕ} (hi : i < 8) (hm : m.getLsbD i = false) :
    x.getLsbD i = y.getLsbD i := by
  have hbit := congrArg (BitVec.getLsbD · i) h
  simp only [BitVec.getLsbD_and, BitVec.getLsbD_not, hm] at hbit
  simpa [hi] using hbit

/-- Bytes that agree outside a mask agree in every field the mask leaves free. -/
theorem extractLsb'_of_masked {x y m : Byte} (h : x &&& ~~~m = y &&& ~~~m) {start len : ℕ}
    (hm : (~~~m).extractLsb' start len = BitVec.allOnes len) : x.extractLsb' start len = y.extractLsb' start len := by
  have := congrArg (BitVec.extractLsb' start len) h
  rwa [BitVec.extractLsb'_and, BitVec.extractLsb'_and, hm, BitVec.and_allOnes, BitVec.and_allOnes] at this

section Reads

variable {c b : Chip} (h : SameRead c b)
include h

theorem SameRead.masked (r : Reg) : c.reg r &&& ~~~(unreadBits r.addr) = b.reg r &&& ~~~(unreadBits r.addr) :=
  h.regs ⟨r.addr, r.addr_lt⟩

theorem SameRead.bit (r : Reg) {i : ℕ} (hi : i < 8) (hr : (unreadBits r.addr).getLsbD i = false) : c.bit r i = b.bit r i :=
  getLsbD_of_masked (h.masked r) hi hr

theorem SameRead.field (r : Reg) {start len : ℕ}
    (hr : (~~~(unreadBits r.addr)).extractLsb' start len = BitVec.allOnes len) :
    (c.reg r).extractLsb' start len = (b.reg r).extractLsb' start len :=
  extractLsb'_of_masked (h.masked r) hr

theorem SameRead.reg (r : Reg) (hr : unreadBits r.addr = 0#8) : c.reg r = b.reg r := by
  simpa only [hr, BitVec.not_zero, BitVec.and_allOnes] using h.masked r

/-! ### The flags -/

theorem SameRead.ctrl (v : VoiceId) : c.reg (.voice v .ctrl) = b.reg (.voice v .ctrl) := h.reg _ (by cases v <;> decide)

theorem SameRead.flagNoise_eq (v : VoiceId) : flagNoise c v = flagNoise b v := congrArg (BitVec.getLsbD · 7) (h.ctrl v)
theorem SameRead.flagPulse_eq (v : VoiceId) : flagPulse c v = flagPulse b v := congrArg (BitVec.getLsbD · 6) (h.ctrl v)
theorem SameRead.flagRamp_eq (v : VoiceId) : flagRamp c v = flagRamp b v := congrArg (BitVec.getLsbD · 5) (h.ctrl v)
theorem SameRead.flagTri_eq (v : VoiceId) : flagTri c v = flagTri b v := congrArg (BitVec.getLsbD · 4) (h.ctrl v)
theorem SameRead.flagTest_eq (v : VoiceId) : flagTest c v = flagTest b v := congrArg (BitVec.getLsbD · 3) (h.ctrl v)
theorem SameRead.flagRing_eq (v : VoiceId) : flagRing c v = flagRing b v := congrArg (BitVec.getLsbD · 2) (h.ctrl v)
theorem SameRead.flagSync_eq (v : VoiceId) : flagSync c v = flagSync b v := congrArg (BitVec.getLsbD · 1) (h.ctrl v)
theorem SameRead.flagGate_eq (v : VoiceId) : flagGate c v = flagGate b v := congrArg (BitVec.getLsbD · 0) (h.ctrl v)

theorem SameRead.flagFilt_eq (v : VoiceId) : flagFilt c v = flagFilt b v := by
  cases v <;> exact h.bit .resFilt (by decide) (by decide)

theorem SameRead.modeVol : c.reg .modeVol = b.reg .modeVol := h.reg _ (by decide)

theorem SameRead.flagV3off_eq : flagV3off c = flagV3off b := congrArg (BitVec.getLsbD · 7) h.modeVol
theorem SameRead.flagHp_eq : flagHp c = flagHp b := congrArg (BitVec.getLsbD · 6) h.modeVol
theorem SameRead.flagBp_eq : flagBp c = flagBp b := congrArg (BitVec.getLsbD · 5) h.modeVol
theorem SameRead.flagLp_eq : flagLp c = flagLp b := congrArg (BitVec.getLsbD · 4) h.modeVol
theorem SameRead.vol4_eq : vol4 c = vol4 b := congrArg (BitVec.extractLsb' 0 4) h.modeVol

theorem SameRead.flagLadder_eq : flagLadder c = flagLadder b := h.bit .control (by decide) (by decide)
theorem SameRead.flagMulti_eq : flagMulti c = flagMulti b := h.bit .control (by decide) (by decide)

/-! ### The decoded fields (R24) -/

theorem SameRead.freq16_eq (v : VoiceId) : freq16 c v = freq16 b v := by
  rw [freq16, freq16, h.reg (.voice v .freqHi) (by cases v <;> decide),
    h.reg (.voice v .freqLo) (by cases v <;> decide)]

theorem SameRead.pw12_eq (v : VoiceId) : pw12 c v = pw12 b v := by
  rw [pw12, pw12, h.field (.voice v .pwHi) (by cases v <;> decide),
    h.reg (.voice v .pwLo) (by cases v <;> decide)]

theorem SameRead.inc_eq (k : Cfg) (v : VoiceId) : inc k c v = inc k b v := by
  rw [inc, inc, h.freq16_eq, h.params]

theorem SameRead.dt_eq (k : Cfg) (v : VoiceId) : dt k c v = dt k b v := by
  rw [dt, dt, h.inc_eq, h.params]

theorem SameRead.fc11_eq : fc11 c = fc11 b := by
  rw [fc11, fc11, h.reg .fcHi (by decide), h.field .fcLo (by decide)]

theorem SameRead.cutoff_eq : cutoff c = cutoff b := by rw [cutoff, cutoff, h.fc11_eq]

theorem SameRead.res4_eq : res4 c = res4 b := h.field .resFilt (by decide)

theorem SameRead.envInput_eq (k : Cfg) (v : VoiceId) : envInput k c v = envInput k b v := by
  have had : c.reg (.voice v .ad) = b.reg (.voice v .ad) := h.reg _ (by cases v <;> decide)
  have hsr : c.reg (.voice v .sr) = b.reg (.voice v .sr) := h.reg _ (by cases v <;> decide)
  simp only [envInput, h.flagGate_eq, atk, dcy, suslevel, sus, rel, had, hsr]

/-! ### The steps T1 to T6 -/

/-- What changes the voices alone keeps the agreement, where it makes the same voices. -/
theorem SameRead.withVoices {p q : PerVoice Voice} (hpq : ∀ v, p.get v = q.get v) :
    SameRead { c with voices := p } { b with voices := q } :=
  ⟨PerVoice.ext_get hpq, h.params, h.filter, h.regs⟩

theorem SameRead.tickNoise : SameRead (tickNoise c) (tickNoise b) :=
  h.withVoices fun v => by simp only [PerVoice.get_mapVoice, h.voices]

theorem SameRead.tickPhase (k : Cfg) : SameRead (tickPhase k c) (tickPhase k b) :=
  h.withVoices fun v => by simp only [PerVoice.get_mapVoice, h.voices, h.flagTest_eq, h.inc_eq, h.dt_eq]

theorem SameRead.tickSync : SameRead (tickSync c) (tickSync b) :=
  h.withVoices fun v => by simp only [PerVoice.get_mapVoice, h.voices, h.flagSync_eq]

theorem SameRead.noWaveform_eq (v : VoiceId) : noWaveform c v = noWaveform b v := by
  simp only [noWaveform, h.flagNoise_eq, h.flagPulse_eq, h.flagRamp_eq, h.flagTri_eq]

theorem SameRead.waveAnd_eq (v : VoiceId) : waveAnd c v = waveAnd b v := by
  simp only [waveAnd, foldAnd, h.noWaveform_eq, h.voices, h.flagNoise_eq, h.flagPulse_eq, h.flagRamp_eq, h.flagTri_eq,
    h.flagRing_eq, h.pw12_eq]

theorem SameRead.sumMulti_eq (v : VoiceId) : sumMulti c v = sumMulti b v := by
  simp only [sumMulti, h.voices, h.flagNoise_eq, h.flagPulse_eq, h.flagRamp_eq, h.flagTri_eq, h.pw12_eq]

theorem SameRead.centreValue_eq (v : VoiceId) : centreValue c v = centreValue b v := by
  simp only [centreValue, h.voices, h.flagMulti_eq, h.flagRing_eq, h.waveAnd_eq, h.sumMulti_eq]

theorem SameRead.tickWave : SameRead (tickWave c) (tickWave b) :=
  h.withVoices fun v => by simp only [PerVoice.get_mapVoice, h.voices, h.centreValue_eq]

theorem SameRead.tickEnvelope (k : Cfg) : SameRead (tickEnvelope k c) (tickEnvelope k b) :=
  h.withVoices fun v => by simp only [PerVoice.get_mapVoice, h.voices, h.envInput_eq]

/-- The same byte in the same register keeps the agreement. -/
theorem SameRead.setReg (r : Reg) (d : Byte) : SameRead (c.setReg r d) (b.setReg r d) where
  voices := h.voices
  params := h.params
  filter := h.filter
  regs a := by
    simp only [Chip.setReg_regs, Fin.getElem_fin, Vector.getElem_set]
    split
    · rfl
    · exact h.regs a

theorem SameRead.tickOutput : SameRead (tickOutput c) (tickOutput b) := by
  have hout : SameRead { c with voices := c.voices.mapVoice fun _ o => digitalOut o }
      { b with voices := b.voices.mapVoice fun _ o => digitalOut o } :=
    h.withVoices fun v => by simp only [h.voices]
  rw [Machine.tickOutput, Machine.tickOutput, h.voices]
  rw [h.voices] at hout
  exact (hout.setReg .osc3 _).setReg .env3 _

theorem SameRead.tickDigital (k : Cfg) : SameRead (tickDigital k c) (tickDigital k b) :=
  (((((h.tickNoise).tickPhase k).tickSync).tickWave).tickEnvelope k).tickOutput

/-! ### The analogue stage (T7) -/

theorem SameRead.analogueValue_eq (v : VoiceId) : analogueValue c v = analogueValue b v := by
  simp only [analogueValue, h.voices, h.params]

theorem SameRead.filterInput_eq : filterInput c = filterInput b := by
  simp only [filterInput, filteredSum, addFiltered, noiseFloor, h.flagFilt_eq, h.analogueValue_eq, h.voices, h.params]

theorem SameRead.bypassed_eq (v : VoiceId) : bypassed c v = bypassed b v := by
  simp only [bypassed, h.flagFilt_eq, h.flagV3off_eq]

theorem SameRead.bypassSum_eq : bypassSum c = bypassSum b := by
  simp only [bypassSum, addBypass, h.bypassed_eq, h.analogueValue_eq]

theorem SameRead.svfStep_eq (x : F32) : svfStep c x = svfStep b x := by
  simp only [svfStep, svfOut, svfDamping, h.filter, h.cutoff_eq, h.res4_eq, h.flagHp_eq, h.flagBp_eq, h.flagLp_eq]

theorem SameRead.ladderStep_eq (x : F32) : ladderStep c x = ladderStep b x := by
  simp only [ladderStep, ladderCoeffs, h.filter, h.params, h.cutoff_eq, h.res4_eq]

theorem SameRead.filterStep_eq : filterStep c (filterInput c) = filterStep b (filterInput b) := by
  simp only [filterStep, h.flagLadder_eq, h.filterInput_eq, h.ladderStep_eq, h.svfStep_eq]

theorem SameRead.tickAnalogue_sample : (tickAnalogue c).sample = (tickAnalogue b).sample := by
  simp only [tickAnalogue, outputSample, h.filterStep_eq, h.bypassSum_eq, h.vol4_eq, h.params]

theorem SameRead.tickAnalogue : SameRead (tickAnalogue c) (tickAnalogue b) :=
  ⟨h.voices, h.params, congrArg Prod.fst h.filterStep_eq, h.regs⟩

theorem SameRead.tickHold : SameRead (tickHold c) (tickHold b) :=
  h.withVoices fun v => by simp only [h.voices]

/-! ### The whole tick -/

theorem SameRead.tick (k : Cfg) : SameRead (tick k c) (tick k b) := ((h.tickDigital k).tickAnalogue).tickHold

theorem SameRead.tick_sample (k : Cfg) : (Machine.tick k c).sample = (Machine.tick k b).sample :=
  (h.tickDigital k).tickAnalogue_sample

/-- The two taps are written from the voices of the tick (R188). -/
theorem SameRead.tick_taps (k : Cfg) :
    (Machine.tick k c).regs[0x1B] = (Machine.tick k b).regs[0x1B] ∧
      (Machine.tick k c).regs[0x1C] = (Machine.tick k b).regs[0x1C] := by
  simp [tick_regs, (h.tick k).voices]

end Reads

/-- Settles O40: the agreement goes through the tick, and what it says of the chips after it is the statement. -/
theorem reservedBitsDoNotReachATick : Obligations.ReservedBitsDoNotReachATick := by
  intro k c b hvoices hparams hfilter hregs
  have h : SameRead c b := ⟨hvoices, hparams, hfilter, hregs⟩
  have ht := h.tick k
  exact ⟨ht.voices, ht.filter, h.tick_sample k, ht.params, h.tick_taps k⟩

end Sys2Proof.Machine
end

section
/-! PROOFS. The register writes (R110 to R148): every register but the taps and CONTROL is exchanged, a tap discards the byte,
and CONTROL is exchanged or resets the chip. -/

namespace Sys2Proof.Machine

open Sys2Proof

/-! ### What a write does to its register -/

/-- Every register but the taps and CONTROL takes the byte (R110). -/
theorem chipWrite_of_stored {r : Reg} (hr : r ≠ .osc3 ∧ r ≠ .env3 ∧ r ≠ .control) (c : Chip) (d : Byte) :
    chipWrite c r d = c.setReg r d := by
  obtain ⟨hosc, henv, hctl⟩ := hr
  cases r with
  | osc3 => exact absurd rfl hosc
  | env3 => exact absurd rfl henv
  | control => exact absurd rfl hctl
  | _ => rfl

/-- A tap discards the byte (R139, R140). -/
theorem chipWrite_of_tap {r : Reg} (hr : r = .osc3 ∨ r = .env3) (c : Chip) (d : Byte) : chipWrite c r d = c := by
  obtain rfl | rfl := hr <;> rfl

/-- The bank a CONTROL write with the reset bit leaves (R148): the default tone in the three voices, `b` in CONTROL. -/
theorem regsReset_set_control (clk : BitVec 24) (b : Byte) :
    let lo : Byte := (f440 clk).extractLsb' 0 8
    let hi : Byte := (f440 clk).extractLsb' 8 8
    (regsReset clk).set Reg.control.addr b Reg.control.addr_lt =
      #v[lo, hi, 0x00#8, 0x08#8, 0x00#8, 0x00#8, 0x00#8, lo, hi, 0x00#8, 0x08#8, 0x00#8, 0x00#8, 0x00#8,
        lo, hi, 0x00#8, 0x08#8, 0x00#8, 0x00#8, 0x00#8, 0x00#8, 0x00#8, 0x00#8, 0x00#8, 0x00#8, 0x00#8, 0x00#8,
        0x00#8, b, 0x00#8, 0x00#8] := rfl

/-! ### The commands on a valid handle -/

section Handle
variable {s : State} {h : Byte} {n : Nat} {c : Chip}

/-- Where the write stores the byte, the command is the exchange at the register's address (R110). -/
theorem wrCommand_eq_exchanged {r : Reg} {d : Byte} (hw : chipWrite c r d = c.setReg r d) (hh : HandleOf s h n c) :
    wrCommand r h d s = .next (s.exchanged n c ⟨r.addr, r.addr_lt⟩ d) := by
  rw [wrCommand_of_handle r hh, hw]
  rfl

theorem wrCommand_of_stored {r : Reg} (hr : r ≠ .osc3 ∧ r ≠ .env3 ∧ r ≠ .control) (hh : HandleOf s h n c) (d : Byte) :
    wrCommand r h d s = .next (s.exchanged n c ⟨r.addr, r.addr_lt⟩ d) :=
  wrCommand_eq_exchanged (chipWrite_of_stored hr c d) hh

/-- The seven registers of a voice are all exchanged (R112 to R132). -/
theorem wrCommand_voice (hh : HandleOf s h n c) (d : Byte) (v : VoiceId) (r : VReg) :
    wrCommand (.voice v r) h d s = .next (s.exchanged n c ⟨(Reg.voice v r).addr, (Reg.voice v r).addr_lt⟩ d) :=
  wrCommand_eq_exchanged (chipWrite_voice c v r d) hh

/-- A write to a tap answers the tap and changes nothing (R139, R140): the chip is put back as it was. -/
theorem wrCommand_of_tap {r : Reg} (hr : r = .osc3 ∨ r = .env3) (hh : HandleOf s h n c) (d : Byte) :
    wrCommand r h d s = .next { s with rsp := [.ok ((c.reg r).setWidth 32)] } := by
  have hslot : s.pool[n]? = some (some c) := hh.2.2
  rw [wrCommand_of_handle r hh, chipWrite_of_tap hr, list_set_self hslot]

end Handle

/-! ### The statements -/

/-- Settles O17: each command is the exchange of one voice register. -/
theorem frequencyAndPulseWidthWritesExchangeOneByte : Obligations.FrequencyAndPulseWidthWritesExchangeOneByte := by
  intro s h d n c hh
  have exchange := wrCommand_voice hh d
  exact ⟨exchange .v1 .freqLo, exchange .v1 .freqHi, exchange .v2 .freqLo, exchange .v2 .freqHi,
    exchange .v3 .freqLo, exchange .v3 .freqHi, exchange .v1 .pwLo, exchange .v1 .pwHi,
    exchange .v2 .pwLo, exchange .v2 .pwHi, exchange .v3 .pwLo, exchange .v3 .pwHi⟩

/-- Settles O18: each command is the exchange of one voice register. -/
theorem voiceControlAndEnvelopeWritesExchangeOneByte : Obligations.VoiceControlAndEnvelopeWritesExchangeOneByte := by
  intro s h d n c hh
  have exchange := wrCommand_voice hh d
  exact ⟨exchange .v1 .ctrl, exchange .v1 .ad, exchange .v1 .sr, exchange .v2 .ctrl, exchange .v2 .ad, exchange .v2 .sr,
    exchange .v3 .ctrl, exchange .v3 .ad, exchange .v3 .sr⟩

/-- Settles O19: the filter, volume and reserved registers store the byte, the taps discard it. -/
theorem filterReservedAndTapWrites : Obligations.FilterReservedAndTapWrites := by
  intro s h d n c hh
  have exchange (r : Reg) (hr : r ≠ .osc3 ∧ r ≠ .env3 ∧ r ≠ .control) := wrCommand_of_stored hr hh d
  exact ⟨exchange .fcLo (by decide), exchange .fcHi (by decide), exchange .resFilt (by decide), exchange .modeVol (by decide),
    exchange .rsv19 (by decide), exchange .rsv1A (by decide),
    wrCommand_of_tap (.inl rfl) hh d, wrCommand_of_tap (.inr rfl) hh d⟩

/-- Settles O20: with bit 7 clear CONTROL is exchanged like the others; with bit 7 set the chip stored is the reset chip with
the byte, less bit 7, in CONTROL, and every piece of it is written out in the statement. -/
theorem controlWritesStoreOrReset : Obligations.ControlWritesStoreOrReset := by
  intro s h d n c hh
  refine ⟨fun hclear => wrCommand_eq_exchanged (chipWrite_control_of_clear c hclear) hh, fun hset => ?_⟩
  have hregs := regsReset_set_control c.params.clkHz (d &&& 0x7F#8)
  have hexec : exec (.wrControl h d) s = wrCommand .control h d s := rfl
  rw [hexec, wrCommand_of_handle .control hh, chipWrite_control_of_reset c hset, Chip.setReg, chipReset, chipResetWith, hregs]
  rfl

end Sys2Proof.Machine
end

section
/-! PROOFS. Analogue IO (R150 to R162): CREATE and DESTROY on the pool, the conditioning of a parameter, and the setters that
store an integer. -/

namespace Sys2Proof.Machine

open Sys2Proof

/-! ### Conditioning a parameter (R162) -/

section Clamp
variable {p lo hi : F32}

theorem clampf_of_not_above (hl : flt lo p = false) : clampf p lo hi = lo := by
  simp [clampf, hl]

theorem clampf_of_above (hl : flt lo p = true) (hh : flt hi p = true) : clampf p lo hi = hi := by
  simp [clampf, hl, hh]

theorem clampf_of_between (hl : flt lo p = true) (hh : flt hi p = false) : clampf p lo hi = p := by
  simp [clampf, hl, hh]

theorem flt_nan_right (a : F32) {b : F32} (hb : unpack b = .nan) : flt a b = false := by
  rw [flt, hb]
  cases unpack a <;> rfl

/-- Below `+∞` and not below `-∞` lies every finite value. -/
theorem flt_inf_right {a b : F32} {neg : Bool} (ha : isFinite a = true) (hb : unpack b = .inf neg) : flt a b = !neg := by
  obtain ⟨n, m, e, hu, -⟩ := unpack_of_finite ha
  rw [flt, hu, hb]

/-- A conditioned parameter is a bound, or a value strictly above the lower one. -/
theorem clampf_eq_bound_or_lt (p : F32) (hlo : isFinite lo = true) (hhi : isFinite hi = true) :
    clampf p lo hi = lo ∨ clampf p lo hi = hi ∨
      (isFinite (clampf p lo hi) = true ∧ f32Value lo < f32Value (clampf p lo hi)) := by
  cases hl : flt lo p with
  | false => exact .inl (clampf_of_not_above hl)
  | true =>
    cases hh : flt hi p with
    | true => exact .inr (.inl (clampf_of_above hl hh))
    | false =>
      have hp := isFinite_of_between hlo hhi hl hh
      rw [clampf_of_between hl hh]
      exact .inr (.inr ⟨hp, by simpa [flt_eq_decide hlo hp] using hl⟩)

end Clamp

/-- `x` is finite with a clear sign bit: what `floorScaled` takes. -/
def HasClearSign (x : F32) : Prop := ∃ m e, unpack x = .fin false m e

theorem HasClearSign.isFinite {x : F32} (h : HasClearSign x) : isFinite x = true :=
  let ⟨_, _, hu⟩ := h
  isFinite_of_unpack hu

theorem HasClearSign.nonneg {x : F32} (h : HasClearSign x) : 0 ≤ f32Value x := by
  obtain ⟨m, e, hu⟩ := h
  rw [f32Value_of_unpack hu, if_neg (by decide)]
  positivity

theorem hasClearSign_fPos0 : HasClearSign fPos0 := ⟨0, -149, by decide⟩
theorem hasClearSign_f1 : HasClearSign f1 := ⟨2 ^ 23, -23, by decide⟩
theorem hasClearSign_f16777215 : HasClearSign f16777215 := ⟨16777215, 0, by decide⟩

/-- Between bounds with a clear sign there is no `-0.0`: a parameter kept as it is lies strictly above the lower one. -/
theorem HasClearSign.clampf {lo hi : F32} (hlo : HasClearSign lo) (hhi : HasClearSign hi) (p : F32) :
    HasClearSign (clampf p lo hi) := by
  obtain heq | heq | ⟨hfin, hlt⟩ := clampf_eq_bound_or_lt p hlo.isFinite hhi.isFinite
  · rwa [heq]
  · rwa [heq]
  · exact unpack_of_pos hfin (hlo.nonneg.trans_lt hlt)

/-! ### The stored integers (R155, R160) -/

/-- The whole part of a conditioned parameter, scaled. -/
theorem floorScaled_clampf {lo hi : F32} (hlo : HasClearSign lo) (hhi : HasClearSign hi) (p : F32) (k : ℕ) :
    (floorScaled (clampf p lo hi) k : ℤ) = ⌊f32Value (clampf p lo hi) * 2 ^ k⌋ :=
  let ⟨_, _, hu⟩ := hlo.clampf hhi p
  floorScaled_eq_floor hu k

/-- The stored detune (R155) is the whole part, saturated. -/
theorem detuneOf_toNat (p : F32) :
    ((detuneOf p).toNat : ℤ) = min 65535 ⌊f32Value (clampf p fPos0 f1) * 65536⌋ := by
  have hfloor := floorScaled_clampf hasClearSign_fPos0 hasClearSign_f1 p 16
  rw [show (2 : ℚ) ^ 16 = 65536 by norm_num] at hfloor
  rw [← hfloor, detuneOf, BitVec.toNat_ofNat, Nat.mod_eq_of_lt (by omega)]
  push_cast
  rfl

/-- The stored clock rate (R160) is the whole part: the upper bound fits 24 bits. -/
theorem clkHzOf_toNat (p : F32) : ((clkHzOf p).toNat : ℤ) = ⌊f32Value (clampf p f1 f16777215)⌋ := by
  have hfloor := floorScaled_clampf hasClearSign_f1 hasClearSign_f16777215 p 0
  rw [pow_zero, mul_one] at hfloor
  have hle : f32Value (clampf p f1 f16777215) ≤ 16777215 := by
    have hrange := inRange_clampf p (lo := f1) (hi := f16777215) (by decide) (by decide) (by decide)
    obtain ⟨-, -, hhi⟩ := (inRange_iff (by decide) (by decide)).1 hrange
    rwa [f32Value_f16777215] at hhi
  have hmax : ⌊f32Value (clampf p f1 f16777215)⌋ ≤ 16777215 := Int.floor_le_iff.2 (by push_cast; linarith)
  rw [← hfloor, clkHzOf, BitVec.toNat_ofNat, Nat.mod_eq_of_lt (by omega)]

/-! ### Representable numbers are not rounded -/

/-- The last place of a number of at most 24 bits is not above the place it is written at. -/
theorem ulpExp_le_of_lt {m : ℕ} (hm : m ≠ 0) {e k : ℤ} (hk : -149 ≤ k) (h : (m : ℚ) * 2 ^ e < 2 ^ 24 * 2 ^ k) :
    ulpExp m e ≤ k := by
  have hlog : (2 : ℚ) ^ m.log2 ≤ m := by exact_mod_cast Nat.log2_self_le hm
  have hpow : (2 : ℚ) ^ ((m.log2 : ℤ) + e) < 2 ^ ((24 : ℤ) + k) := by
    calc (2 : ℚ) ^ ((m.log2 : ℤ) + e) = 2 ^ m.log2 * 2 ^ e := by rw [zpow_add₀ (by norm_num), zpow_natCast]
      _ ≤ m * 2 ^ e := by gcongr
      _ < 2 ^ 24 * 2 ^ k := h
      _ = 2 ^ ((24 : ℤ) + k) := by rw [zpow_add₀ (by norm_num)]; norm_num
  have := (zpow_lt_zpow_iff_right₀ (by norm_num : (1 : ℚ) < 2)).1 hpow
  have := ulpExp_eq_or m e
  omega

/-- A number of at most 24 bits, at an exponent a binary32 has, is packed exactly, however it is written. -/
theorem roundPack_of_representable (neg : Bool) {m j : ℕ} {e k : ℤ} (h : (m : ℚ) * 2 ^ e = j * 2 ^ k) (hj : j < 2 ^ 24)
    (hk : -149 ≤ k) (hk' : k ≤ 103) :
    isFinite (roundPack neg m e) = true ∧ f32Value (roundPack neg m e) = signed neg m * 2 ^ e := by
  by_cases hm : m = 0
  · subst hm
    rw [roundPack_zero, f32Value_f32Zero]
    exact ⟨isFinite_withSign neg (by omega), by simp [signed]⟩
  · have hj' : (j : ℚ) < 2 ^ 24 := by exact_mod_cast hj
    have hulp : ulpExp m e ≤ k := ulpExp_le_of_lt hm hk (by rw [h]; gcongr)
    obtain ⟨t, ht⟩ := exists_ulpExp_eq m e
    have hN := roundShift_le m e
    have hlt : t * 2 ^ 23 + roundShift m (ulpExp m e - e) < 0x7F800000 := by omega
    have hint : (m : ℚ) * 2 ^ (e - ulpExp m e) = ((j * 2 ^ (k - ulpExp m e).toNat : ℕ) : ℤ) := by
      have hplace (w : ℚ) (i : ℤ) : w * 2 ^ (i - ulpExp m e) = w * 2 ^ i / 2 ^ ulpExp m e := by
        rw [zpow_sub₀ (by norm_num), mul_div_assoc]
      push_cast
      rw [← zpow_natCast, Int.toNat_of_nonneg (by omega), hplace, hplace, h]
    have hexact : (roundShift m (ulpExp m e - e) : ℚ) = m * 2 ^ (e - ulpExp m e) := by
      have hnear := nearestEven_significand m e
      rw [hint] at hnear ⊢
      exact_mod_cast hnear.eq_of_int
    refine ⟨?_, ?_⟩
    · rw [roundPack, roundMag_eq hm ht hlt]; exact isFinite_withSign neg hlt
    · rw [f32Value_roundPack hm ht hlt, ← signed_mul, hexact, mul_assoc, ← zpow_add₀ (by norm_num), sub_add_cancel,
        signed_mul]

/-- Division by 65536 leaves no remainder in `divFin`: the divisor's significand is a power of two. -/
theorem fdiv_f65536_of_unpack {x : F32} {n : Bool} {m : ℕ} {e : ℤ} (h : unpack x = .fin n m e) :
    fdiv x f65536 = roundPack n (m * 2 ^ 42) (e - 58) := by
  have hu : unpack f65536 = .fin false (2 ^ 23) (-7) := by decide
  have hquot : 2 * (m * 2 ^ 64 / 2 ^ 23) + 0 = m * 2 ^ 42 := by omega
  rw [fdiv, h, hu]
  simp only [if_neg (show (2 : ℕ) ^ 23 ≠ 0 by decide)]
  rw [divFin, if_pos (by omega), hquot, Bool.xor_false, show e - -7 - 65 = e - 58 by ring]

/-- `i2f` of a natural number up to `2^24` is that number (R12). -/
theorem i2f_natCast_exact {n : ℕ} (h : n ≤ 2 ^ 24) : isFinite (i2f n) = true ∧ f32Value (i2f n) = n := by
  have hn : |(n : ℤ)| ≤ 2 ^ 24 := by rw [Nat.abs_cast]; exact_mod_cast h
  exact_mod_cast i2f_exact hn

theorem abs_signed_mul_zpow (neg : Bool) (m : ℕ) (e : ℤ) : |signed neg m * 2 ^ e| = (m : ℚ) * 2 ^ e := by
  rw [abs_mul, abs_of_pos (a := (2 : ℚ) ^ e) (by positivity)]
  cases neg <;> simp [signed]

/-- The answer of SET_DETUNE (R155): the stored fraction is a binary32 value. -/
theorem f32Value_fdiv_i2f_f65536 (q : BitVec 16) : f32Value (fdiv (i2f q.toNat) f65536) = (q.toNat : ℚ) / 65536 := by
  obtain ⟨hfin, hval⟩ := i2f_natCast_exact (n := q.toNat) (by omega)
  obtain ⟨n, m, e, hu, -⟩ := unpack_of_finite hfin
  rw [f32Value_eq_signed_mul hu] at hval
  have hmag : (m : ℚ) * 2 ^ e = q.toNat := by rw [← abs_signed_mul_zpow n, hval, Nat.abs_cast]
  have hscale (w : ℚ) : w * ((2 ^ 42 : ℕ) : ℚ) * 2 ^ (e - 58) = w * 2 ^ e / 65536 := by
    rw [zpow_sub₀ (by norm_num), show (2 : ℚ) ^ (58 : ℤ) = ((2 ^ 42 : ℕ) : ℚ) * 65536 by norm_num]
    field_simp
  have hrep : ((m * 2 ^ 42 : ℕ) : ℚ) * 2 ^ (e - 58) = q.toNat * 2 ^ (-16 : ℤ) := by
    rw [Nat.cast_mul, hscale, hmag]
    norm_num [div_eq_mul_inv]
  obtain ⟨-, hexact⟩ := roundPack_of_representable n hrep (by omega) (by norm_num) (by norm_num)
  rw [fdiv_f65536_of_unpack hu, hexact, Nat.cast_mul, signed_mul, hscale, hval]

/-! ### CREATE on the pool (R151) -/

theorem execCreate_of_leastDead {s : State} {n : Nat} (h : Byte) (p : F32) (hdead : s.pool[n]? = some none)
    (hlive : ∀ j, j < n → ∃ c, s.pool[j]? = some (some c)) :
    execCreate h p s = .next { s with pool := s.pool.set n (some chipCreated), rsp := [.ok (i2f n)] } := by
  rw [execCreate, leastDead_eq_some.2 ⟨hdead, hlive⟩]
  rfl

theorem execCreate_of_full {s : State} (h : Byte) (p : F32)
    (hlive : ∀ j, j < s.pool.length → ∃ c, s.pool[j]? = some (some c)) :
    execCreate h p s = .next (s.failed .poolFull 0xBF800000#32) := by
  rw [execCreate, leastDead_eq_none.2 hlive]
  rfl

/-! ### The statements -/

/-- The first integer below `-2^24` has 25 significant bits; the tie goes to `-2^24`. -/
theorem f32Value_i2f_neg_16777217 : f32Value (i2f (-16777217)) = -16777216 := by
  rw [f32Value_of_unpack (show unpack (i2f (-16777217)) = .fin true (2 ^ 23) 1 by decide)]
  norm_num

/-- Refutes O23: the last clause ranges over the integers below 128, not the handles, so it takes in negative ones that no
binary32 holds; `i2f (-16777217)` is -16777216. Over the handles it holds: the theorem after this one. -/
theorem not_createTakesTheLeastDeadSlot : ¬ Obligations.CreateTakesTheLeastDeadSlot := by
  rintro ⟨-, -, hexact⟩
  have hval := hexact (-16777217) (by decide)
  rw [f32Value_i2f_neg_16777217] at hval
  norm_num at hval

/-- What O23 states, its last clause read over the handles (R151). -/
theorem create_takes_the_least_dead_slot_and_answers_its_handle :
    (∀ (s : State) (h : Byte) (p : F32) (n : ℕ), s.pool[n]? = some none →
      (∀ j, j < n → ∃ c, s.pool[j]? = some (some c)) →
        exec (.create h p) s = .next { s with pool := s.pool.set n (some chipCreated), rsp := [.ok (i2f n)] }) ∧
    (∀ (s : State) (h : Byte) (p : F32), (∀ j, j < s.pool.length → ∃ c, s.pool[j]? = some (some c)) →
      exec (.create h p) s = .next (s.failed .poolFull 0xBF800000#32)) ∧
    (∀ n : ℕ, n < 128 → f32Value (i2f n) = n) := by
  refine ⟨fun s h p n hdead hlive => execCreate_of_leastDead h p hdead hlive,
    fun s h p hlive => execCreate_of_full h p hlive, fun n hn => ?_⟩
  obtain ⟨-, hval⟩ := i2f_natCast_exact (n := n) (by omega)
  exact hval

/-- Settles O24: after DESTROY the slot is dead, the slots below it are as they were, and so it is the least dead one. -/
theorem destroyFreesTheSlotForReuse : Obligations.DestroyFreesTheSlotForReuse := by
  refine ⟨fun s h p n c hh => execDestroy_of_handle p hh, fun s h h' p p' n c hh hlive => ?_⟩
  have ⟨_, hn, hslot⟩ := hh
  have hlen : n < s.pool.length := (List.getElem?_eq_some_iff.1 hslot).1
  have hdead : (s.pool.set n none)[n]? = some none := List.getElem?_set_self hlen
  have hbelow (j : Nat) (hj : j < n) : ∃ b, (s.pool.set n none)[j]? = some (some b) := by
    rw [List.getElem?_set_ne (by omega)]
    exact hlive j hj
  have hcreate := execCreate_of_leastDead (s := { s with pool := s.pool.set n none, rsp := [.ok fPos0] }) h' p' hdead hbelow
  rw [List.set_set] at hcreate
  exact ⟨_, _, execDestroy_of_handle p hh, .inr (.inr (hn ▸ hdead)), hcreate, rfl⟩

/-- Settles O27: the stored integers by `floorScaled` on a conditioned parameter, the answers as representable numbers. -/
theorem detuneAndClockRateAreStoredAsIntegers : Obligations.DetuneAndClockRateAreStoredAsIntegers := by
  intro s h p n c hh
  refine ⟨⟨detuneOf p, fdiv (i2f (detuneOf p).toNat) f65536, ioCommand_of_handle _ hh, detuneOf_toNat p,
    f32Value_fdiv_i2f_f65536 _⟩, ⟨clkHzOf p, i2f (clkHzOf p).toNat, ioCommand_of_handle _ hh, clkHzOf_toNat p, ?_⟩⟩
  obtain ⟨-, hval⟩ := i2f_natCast_exact (n := (clkHzOf p).toNat) (by omega)
  exact hval

/-- Settles O28: the two comparisons of `clampf`, for each kind of parameter. -/
theorem parameterConditioningClamps : Obligations.ParameterConditioningClamps := by
  intro p lo hi hlo hhi hle
  refine ⟨inRange_clampf p hlo hhi hle, fun hnan => clampf_of_not_above (flt_nan_right lo hnan),
    fun hinf => clampf_of_not_above (flt_inf_right hlo hinf),
    fun hinf => clampf_of_above (flt_inf_right hlo hinf) (flt_inf_right hhi hinf),
    fun hp hbelow => clampf_of_not_above ?_, fun hp habove hin => clampf_of_between ?_ ?_,
    fun hp habove hover => clampf_of_above ?_ ?_⟩
  · simpa [flt_eq_decide hlo hp] using hbelow
  · simpa [flt_eq_decide hlo hp] using habove
  · simpa [flt_eq_decide hhi hp] using hin
  · simpa [flt_eq_decide hlo hp] using habove
  · simpa [flt_eq_decide hhi hp] using hover

/-- Settles O25: an IO command whose effect is the tick. -/
theorem advanceRunsOneTick : Obligations.AdvanceRunsOneTick :=
  fun _ _ _ _ _ hh => ioCommand_of_handle _ hh

/-- Settles O26: each setter is an IO command whose effect stores one field. -/
theorem floatSettersStoreTheClampedParameter : Obligations.FloatSettersStoreTheClampedParameter := by
  intro s h p n c hh
  have stored (f : Chip → Chip × F32) := ioCommand_of_handle f hh
  exact ⟨stored _, ⟨stored _, stored _, stored _⟩, stored _⟩

end Sys2Proof.Machine
end

section
/-! PROOFS. The oscillators (R173 to R189): the three accumulators over one tick and over many, the two mixing policies
written with this tick's phases, and what a tick leaves in the registers. -/

namespace Sys2Proof.Machine

open Sys2Proof

/-! ### The accumulators over one tick (R173 to R176) -/

theorem tick_wrap_of_free (k : Cfg) {c : Chip} {v : VoiceId} (ht : flagTest c v = false) :
    ((tick k c).voices.get v).wrap = decide (2 ^ 24 ≤ (c.voices.get v).phase.toNat + (inc k c v).toNat) := by
  rw [tick_wrap, waveInput_wrap, ht, Bool.not_false, Bool.true_and]

theorem tick_wrap_of_test (k : Cfg) {c : Chip} {v : VoiceId} (ht : flagTest c v = true) :
    ((tick k c).voices.get v).wrap = false := by
  rw [tick_wrap, waveInput_wrap, ht, Bool.not_true, Bool.false_and]

/-- The voice is sent back to phase 0 in the tick: by `test`, or by `sync` on a wrap of the previous voice. -/
def SentToZero (k : Cfg) (c : Chip) (v : VoiceId) : Prop :=
  flagTest c v = true ∨ (flagSync c v = true ∧ ((tick k c).voices.get (prevVoice v)).wrap = true)

theorem tick_phases_of_sentToZero {k : Cfg} {c : Chip} {v : VoiceId} (h : SentToZero k c v) :
    ((tick k c).voices.get v).phase = 0#24 ∧ ((tick k c).voices.get v).phaseP = 0#24
      ∧ ((tick k c).voices.get v).phaseT = 0#24 := by
  rw [SentToZero, tick_wrap] at h
  simpa only [tick_phase, tick_phaseP, tick_phaseT, if_pos h, Prod.mk.injEq] using waveInput_phases k c v

theorem tick_phases_of_not_sentToZero {k : Cfg} {c : Chip} {v : VoiceId} (h : ¬SentToZero k c v) :
    ((tick k c).voices.get v).phase = (c.voices.get v).phase + inc k c v
      ∧ ((tick k c).voices.get v).phaseP = (c.voices.get v).phaseP + inc k c v + dt k c v
      ∧ ((tick k c).voices.get v).phaseT = (c.voices.get v).phaseT + inc k c v - dt k c v := by
  rw [SentToZero, tick_wrap] at h
  simpa only [tick_phase, tick_phaseP, tick_phaseT, if_neg h, Prod.mk.injEq] using waveInput_phases k c v

/-- Settles O30: a voice is sent to phase 0 or advances, and its `wrap` is the carry either way unless `test` holds it. -/
theorem phasesAdvanceUnlessTestedOrSynced : Obligations.PhasesAdvanceUnlessTestedOrSynced := by
  intro k c v
  refine ⟨fun htest => ?_, fun hfree => ⟨?_, fun hsync => ?_, fun hnosync => ?_⟩⟩
  · obtain ⟨hphase, hphaseP, hphaseT⟩ := tick_phases_of_sentToZero (k := k) (.inl htest)
    exact ⟨hphase, hphaseP, hphaseT, tick_wrap_of_test k htest⟩
  · rw [tick_wrap_of_free k hfree, decide_eq_true_iff]
  · exact tick_phases_of_sentToZero (.inr hsync)
  · exact tick_phases_of_not_sentToZero (by simp only [SentToZero, hfree]; simpa using hnosync)

/-! ### The phase over many ticks (R189) -/

section Iterate
variable (k : Cfg) (c : Chip) (v : VoiceId) (n : ℕ)

theorem iterate_tick_reg_voice (r : VReg) : ((tick k)^[n] c).reg (.voice v r) = c.reg (.voice v r) := by
  induction n with
  | zero => rfl
  | succ n ih => rw [Function.iterate_succ_apply', tick_reg_voice, ih]

theorem iterate_tick_params : ((tick k)^[n] c).params = c.params := by
  induction n with
  | zero => rfl
  | succ n ih => rw [Function.iterate_succ_apply', tick_params, ih]

theorem iterate_tick_flagTest : flagTest ((tick k)^[n] c) v = flagTest c v := by
  simp only [flagTest, Chip.bit, iterate_tick_reg_voice]

theorem iterate_tick_flagSync : flagSync ((tick k)^[n] c) v = flagSync c v := by
  simp only [flagSync, Chip.bit, iterate_tick_reg_voice]

/-- No tick changes a frequency register or the clock rate, so the increment stays (R171). -/
theorem iterate_tick_inc : inc k ((tick k)^[n] c) v = inc k c v := by
  simp only [inc, freq16, iterate_tick_reg_voice, iterate_tick_params]

end Iterate

section FreeRunning
variable {k : Cfg} {c : Chip} {v : VoiceId}

theorem phase_iterate_tick (ht : flagTest c v = false) (hs : flagSync c v = false) (n : ℕ) :
    (((tick k)^[n] c).voices.get v).phase.toNat = ((c.voices.get v).phase.toNat + n * (inc k c v).toNat) % 2 ^ 24 := by
  induction n with
  | zero => simpa using (Nat.mod_eq_of_lt (c.voices.get v).phase.isLt).symm
  | succ n ih =>
    have hfree : ¬SentToZero k ((tick k)^[n] c) v := by
      simp [SentToZero, iterate_tick_flagTest, iterate_tick_flagSync, ht, hs]
    obtain ⟨hphase, -⟩ := tick_phases_of_not_sentToZero hfree
    rw [Function.iterate_succ_apply', hphase, iterate_tick_inc, BitVec.toNat_add, ih, Nat.mod_add_mod, Nat.add_mul,
      Nat.one_mul, Nat.add_assoc]

theorem wrap_iterate_tick (ht : flagTest c v = false) (hs : flagSync c v = false) (n : ℕ) :
    (((tick k)^[n + 1] c).voices.get v).wrap =
      decide (2 ^ 24 ≤ ((c.voices.get v).phase.toNat + n * (inc k c v).toNat) % 2 ^ 24 + (inc k c v).toNat) := by
  rw [Function.iterate_succ_apply', tick_wrap_of_free k ((iterate_tick_flagTest k c v n).trans ht), iterate_tick_inc,
    phase_iterate_tick ht hs]

/-- Each tick adds to the count of wraps exactly the carry it adds to the number of whole turns. -/
theorem count_wraps_iterate_tick (ht : flagTest c v = false) (hs : flagSync c v = false) (n : ℕ) :
    ((List.range n).filter fun j => (((tick k)^[j + 1] c).voices.get v).wrap).length =
      ((c.voices.get v).phase.toNat + n * (inc k c v).toNat) / 2 ^ 24 := by
  induction n with
  | zero => simpa using (Nat.div_eq_of_lt (c.voices.get v).phase.isLt).symm
  | succ n ih =>
    have hinc : (inc k c v).toNat < 2 ^ 24 := (inc k c v).isLt
    have hturns : ((c.voices.get v).phase.toNat + (n + 1) * (inc k c v).toNat) / 2 ^ 24 =
        ((c.voices.get v).phase.toNat + n * (inc k c v).toNat) / 2 ^ 24 +
          if (((tick k)^[n + 1] c).voices.get v).wrap then 1 else 0 := by
      rw [wrap_iterate_tick ht hs, Nat.add_mul, Nat.one_mul, ← Nat.add_assoc, Nat.add_div (by norm_num),
        Nat.div_eq_of_lt hinc, Nat.mod_eq_of_lt hinc, Nat.add_zero]
      simp only [decide_eq_true_iff]
    rw [List.range_succ, List.filter_append, List.length_append, ih, hturns, List.filter_singleton]
    cases (((tick k)^[n + 1] c).voices.get v).wrap <;> rfl

end FreeRunning

/-- Settles O31: the phase and the count of wraps by induction on the ticks; whole turns vanish modulo 2^24. -/
theorem phaseAfterManyTicks : Obligations.PhaseAfterManyTicks := by
  intro k c v n ht hs
  refine ⟨phase_iterate_tick ht hs n, fun hturns => ?_, count_wraps_iterate_tick ht hs n⟩
  apply BitVec.eq_of_toNat_eq
  rw [phase_iterate_tick ht hs, Nat.add_mod, Nat.mod_eq_zero_of_dvd hturns, Nat.add_zero, Nat.mod_mod,
    Nat.mod_eq_of_lt (c.voices.get v).phase.isLt]

/-! ### The waveforms as arithmetic on an accumulator (R177 to R179) -/

theorem ramp12_eq (p : BitVec 24) : ramp12 p = BitVec.ofNat 12 (p.toNat / 4096) := by
  rw [ramp12, BitVec.extractLsb', Nat.shiftRight_eq_div_pow]

theorem ramp12_toNat (p : BitVec 24) : (ramp12 p).toNat = p.toNat / 4096 := by
  have := p.isLt
  rw [ramp12_eq, BitVec.toNat_ofNat]
  omega

theorem tri12_eq (p : BitVec 24) (fold : Bool) :
    tri12 p fold = BitVec.ofNat 12 (p.toNat / 2048) ^^^ (if fold then 0xFFF#12 else 0x000#12) := by
  rw [tri12, BitVec.extractLsb', Nat.shiftRight_eq_div_pow]

/-- A folded triangle runs down: the XOR with all ones is the complement. -/
theorem tri12_toNat (p : BitVec 24) (fold : Bool) :
    (tri12 p fold).toNat = if fold then 4095 - p.toNat / 2048 % 4096 else p.toNat / 2048 % 4096 := by
  rw [tri12_eq]
  cases fold with
  | false => simp
  | true =>
    rw [if_pos rfl, if_pos rfl, show (0xFFF#12) = BitVec.allOnes 12 from rfl, BitVec.xor_allOnes, BitVec.toNat_not,
      BitVec.toNat_ofNat]

theorem pulse12_toNat (p : BitVec 24) (pw : BitVec 12) :
    (pulse12 p pw).toNat = if pw.toNat ≤ p.toNat / 4096 then 4095 else 0 := by
  rw [pulse12, ramp12_toNat]
  split <;> rfl

/-! ### What step T4 computes (R180 to R182) -/

theorem tick_centre_toInt (k : Cfg) (c : Chip) (v : VoiceId) :
    ((tick k c).voices.get v).centre.toInt = centreValue (waveInput k c) v := by
  obtain ⟨hcentre, -⟩ := tick_centre k c v
  obtain ⟨hlo, hhi⟩ := centreValue_bounds (waveInput k c) v
  rw [hcentre, BitVec.toInt_ofInt, Int.bmod_eq_of_le (by omega) (by omega)]

@[simp] theorem tick_nout (k : Cfg) (c : Chip) (v : VoiceId) :
    ((tick k c).voices.get v).nout = ((waveInput k c).voices.get v).nout := by
  rw [tick_get]; simp

@[simp] theorem waveInput_held (k : Cfg) (c : Chip) (v : VoiceId) :
    ((waveInput k c).voices.get v).held = (c.voices.get v).held := by
  rw [waveInput_eq]

section Mixing
variable {c : Chip} {v : VoiceId}

theorem centreValue_of_and (h : flagMulti c = false) : centreValue c v = ((waveAnd c v).toNat : ℤ) - 2048 := by
  rw [centreValue, h, if_neg Bool.false_ne_true]

theorem centreValue_of_multi (h : flagMulti c = true) (hr : flagRing c v = false) : centreValue c v = sumMulti c v := by
  rw [centreValue, h, if_pos rfl, hr, if_neg Bool.false_ne_true]

theorem centreValue_of_multi_ring (h : flagMulti c = true) (hr : flagRing c v = true) :
    centreValue c v = ringProduct (sumMulti c v) (c.voices.get (prevVoice v)).held.toInt := by
  rw [centreValue, h, if_pos rfl, hr, if_pos rfl]

theorem noWaveform_iff : noWaveform c v = true ↔
    flagNoise c v = false ∧ flagPulse c v = false ∧ flagRamp c v = false ∧ flagTri c v = false := by
  simp [noWaveform, and_assoc]

theorem waveAnd_of_none (h : noWaveform c v = true) : waveAnd c v = 0x800#12 := by
  rw [waveAnd, if_pos h]

/-- A waveform that is not selected leaves the AND as it is. -/
theorem and_andTerm (sel : Bool) (x w : BitVec 12) : x &&& andTerm sel w = if sel then x &&& w else x := by
  cases sel with
  | false => exact BitVec.and_allOnes
  | true => rfl

theorem waveAnd_of_some (h : noWaveform c v = false) :
    waveAnd c v = andTerm (flagNoise c v) (c.voices.get v).nout
      &&& andTerm (flagPulse c v) (pulse12 (c.voices.get v).phase (pw12 c v))
      &&& andTerm (flagRamp c v) (ramp12 (c.voices.get v).phase)
      &&& andTerm (flagTri c v) (tri12 (c.voices.get v).phase (foldAnd c v)) := by
  rw [waveAnd, h, if_neg Bool.false_ne_true, show (0xFFF#12) = BitVec.allOnes 12 from rfl, BitVec.allOnes_and]

end Mixing

theorem sumMulti_bounds (c : Chip) (v : VoiceId) : -8192 ≤ sumMulti c v ∧ sumMulti c v ≤ 8188 := by
  have := sumTerm_bounds (flagNoise c v) (c.voices.get v).nout
  have := sumTerm_bounds (flagPulse c v) (pulse12 (c.voices.get v).phaseP (pw12 c v))
  have := sumTerm_bounds (flagRamp c v) (ramp12 (c.voices.get v).phase)
  have := sumTerm_bounds (flagTri c v) (tri12 (c.voices.get v).phaseT ((c.voices.get v).phaseT.getLsbD 23))
  simp only [sumMulti]
  omega

theorem clampInt_eq_max_min (x : ℤ) {lo hi : ℤ} (h : lo ≤ hi) : clampInt x lo hi = max lo (min hi x) := by
  unfold clampInt
  split
  · omega
  · split <;> omega

/-- The shift right by 11 is the floor of the quotient (R182). -/
theorem ringProduct_eq (acc held : ℤ) :
    ringProduct acc held = max (-8192) (min 8191 ⌊((acc * held : ℤ) : ℚ) / 2048⌋) := by
  have hfloor : ⌊((acc * held : ℤ) : ℚ) / 2048⌋ = acc * held / 2048 := by
    exact_mod_cast Rat.floor_intCast_div_natCast (acc * held) 2048
  rw [ringProduct, clampInt_eq_max_min _ (by norm_num), hfloor]

/-- Settles O32: step T4 sees the flags of the chip before the tick and the phases and noise of the chip after it. -/
theorem andMixingCombinesTheSelectedWaveforms : Obligations.AndMixingCombinesTheSelectedWaveforms := by
  intro k c v hand
  have hcentre : ((tick k c).voices.get v).centre.toInt = ((waveAnd (waveInput k c) v).toNat : ℤ) - 2048 :=
    (tick_centre_toInt k c v).trans (centreValue_of_and hand)
  refine ⟨fun hnone => ?_, fun hsome => ?_⟩
  · have hno : noWaveform (waveInput k c) v = true := noWaveform_iff.2 hnone
    rw [hcentre, waveAnd_of_none hno]
    rfl
  · have hno : noWaveform (waveInput k c) v = false := Bool.eq_false_iff.2 fun h => hsome (noWaveform_iff.1 h)
    rw [hcentre, waveAnd_of_some hno]
    simp only [and_andTerm, pulse12, ramp12_eq, tri12_eq, tick_phase, tick_nout]
    rfl

/-- Settles O33: the sum of step T4 term by term, its ring product with the sample held since the tick before. -/
theorem multiMixingSumsTheSelectedWaveforms : Obligations.MultiMixingSumsTheSelectedWaveforms := by
  intro k c v hmulti o' pulse ramp tri acc held
  have hacc : sumMulti (waveInput k c) v = acc := by
    simp only [acc, pulse, ramp, tri, o', sumMulti, sumTerm, pulse12_toNat, ramp12_toNat, tri12_toNat, tick_phase,
      tick_phaseP, tick_phaseT, tick_nout]
    rfl
  obtain ⟨hlo, hhi⟩ := sumMulti_bounds (waveInput k c) v
  rw [hacc] at hlo hhi
  refine ⟨fun hring => ⟨?_, hlo, hhi⟩, fun hring => ?_⟩
  · rw [← hacc]
    exact (tick_centre_toInt k c v).trans (centreValue_of_multi hmulti hring)
  · calc o'.centre.toInt = centreValue (waveInput k c) v := tick_centre_toInt k c v
      _ = ringProduct (sumMulti (waveInput k c) v) ((waveInput k c).voices.get (prevVoice v)).held.toInt :=
        centreValue_of_multi_ring hmulti hring
      _ = ringProduct acc held := by rw [hacc, waveInput_held]
      _ = _ := ringProduct_eq acc held

/-! ### What a tick leaves in the registers (R186 to R188) -/

theorem osc3Tap_toNat (centre : ℤ) : ((osc3Tap centre).toNat : ℤ) = max 0 (min 4095 (centre + 2048)) / 16 := by
  rw [osc3Tap, clampInt_eq_max_min _ (by norm_num), BitVec.toNat_ofInt]
  omega

/-- Settles O34: the outputs by the tick's own lemmas, the two taps and the other registers by the two bytes it stores. -/
theorem tickWritesOutputsAndTapsOnly : Obligations.TickWritesOutputsAndTapsOnly := by
  intro k c
  have hosc3 : (tick k c).regs[0x1B] = osc3Tap (tick k c).voices.v3.centre.toInt := by simp [tick_regs]
  have henv3 : (tick k c).regs[0x1C] = (tick k c).voices.v3.cnt := by simp [tick_regs]
  refine ⟨fun v => ⟨tick_d k c v, (tick_centre k c v).2⟩, ?_, henv3, fun a h1B h1C => ?_, tick_params k c⟩
  · rw [hosc3]
    exact osc3Tap_toNat _
  · exact tick_reg_of_ne k c a.isLt h1B h1C

end Sys2Proof.Machine
end

section
/-! PROOFS. The envelope generator (R200 to R213): the gate as each group of stages sees it, one equation per case of each
stage, and from them what a tick does to an envelope and how long an attack takes. -/

namespace Sys2Proof.Machine

open Sys2Proof

/-! ### The gate (R205) -/

/-- The voice as its attack finds it once the gate is seen high: from release, the hold counter starts afresh. -/
def attackStart (o : Voice) : Voice := { o with est := .attack, hc := if o.est = .release then 0#16 else o.hc }

/-- The voice as its release finds it once the gate is seen low: from any other state, the sub-counter starts afresh. -/
def releaseStart (o : Voice) : Voice := { o with est := .release, sub := if o.est = .release then o.sub else 0#32 }

section Gate
variable {i : EnvInput} {o : Voice}

theorem envGate_of_high (hg : i.gate = true) (h : o.est ≠ .release) : envGate i o = o := by
  simp [envGate, hg, h]

theorem envGate_of_high_attack (hg : i.gate = true) (h : o.est = .release ∨ o.est = .attack) :
    envGate i o = attackStart o := by
  obtain h | h := h
  · simp [envGate, attackStart, hg, h]
  · rw [envGate_of_high hg (by simp [h]), attackStart, if_neg (by simp [h]), ← h]

theorem envGate_of_low (hg : i.gate = false) : envGate i o = releaseStart o := by
  by_cases h : o.est = .release
  · simp [envGate, releaseStart, hg, ← h]
  · simp [envGate, releaseStart, hg, h]

/-! ### The stage a step performs (R211) -/

theorem envStep_of_attack (hg : i.gate = true) (h : o.est = .release ∨ o.est = .attack) :
    envStep i o = envAttack i (attackStart o) := by
  rw [envStep, envGate_of_high_attack hg h]
  rfl

theorem envStep_of_decay (hg : i.gate = true) (h : o.est = .decay) : envStep i o = envDecay i o := by
  rw [envStep, envGate_of_high hg (by simp [h]), envStage, h]

theorem envStep_of_sustain (hg : i.gate = true) (h : o.est = .sustain) : envStep i o = envSustain i o := by
  rw [envStep, envGate_of_high hg (by simp [h]), envStage, h]

theorem envStep_of_low (hg : i.gate = false) : envStep i o = envRelease i (releaseStart o) := by
  rw [envStep, envGate_of_low hg]
  rfl

end Gate

/-! ### Each stage, case by case (R206 to R210) -/

section Stages
variable {i : EnvInput} {o : Voice}

theorem envAttack_of_wait (h : (o.hc + 1#16).toNat < i.attack.hold) :
    envAttack i o = { o with hc := o.hc + 1#16 } := by
  simp only [envAttack, if_neg (not_le.2 h)]

/-- The counter steps, and the attack ends exactly when it stands at 255. -/
theorem envAttack_of_step (h : i.attack.hold ≤ (o.hc + 1#16).toNat) :
    (envAttack i o).hc = 0#16 ∧ (envAttack i o).cnt.toNat = min 255 (o.cnt.toNat + i.attack.step)
      ∧ ((envAttack i o).cnt = 255#8 → (envAttack i o).est = .decay ∧ (envAttack i o).sub = 0#32)
      ∧ ((envAttack i o).cnt ≠ 255#8 → (envAttack i o).est = o.est ∧ (envAttack i o).sub = o.sub) := by
  by_cases hfull : min 255 (o.cnt.toNat + i.attack.step) = 255
  · rw [envAttack, if_pos h, if_pos hfull]
    exact ⟨rfl, hfull.symm, fun _ => ⟨rfl, rfl⟩, fun hne => absurd rfl hne⟩
  · have hcnt : (BitVec.ofNat 8 (min 255 (o.cnt.toNat + i.attack.step))).toNat =
        min 255 (o.cnt.toNat + i.attack.step) := Nat.mod_eq_of_lt (by omega)
    have hne : BitVec.ofNat 8 (min 255 (o.cnt.toNat + i.attack.step)) ≠ 255#8 := fun heq => by
      rw [heq] at hcnt
      exact hfull hcnt.symm
    rw [envAttack, if_pos h, if_neg hfull]
    exact ⟨rfl, hcnt, fun heq => absurd heq hne, fun _ => ⟨rfl, rfl⟩⟩

theorem envDecay_of_le (h : o.cnt.toNat ≤ i.sustain.toNat) : envDecay i o = { o with est := .sustain } := by
  simp only [envDecay, if_pos h]

theorem envDecay_of_wait (h : i.sustain.toNat < o.cnt.toNat)
    (hw : (o.sub + 1#32).toNat < i.decay.hold * decayMult i.mult o.cnt) :
    envDecay i o = { o with sub := o.sub + 1#32 } := by
  simp only [envDecay, if_neg (not_le.2 h), if_neg (not_le.2 hw)]

/-- The counter steps, and the decay ends exactly when it stands at the sustain level. -/
theorem envDecay_of_step (h : i.sustain.toNat < o.cnt.toNat)
    (hs : i.decay.hold * decayMult i.mult o.cnt ≤ (o.sub + 1#32).toNat) :
    (envDecay i o).cnt.toNat = max i.sustain.toNat (o.cnt.toNat - i.decay.step) ∧ (envDecay i o).sub = 0#32
      ∧ (envDecay i o).hc = o.hc
      ∧ (envDecay i o).est = if (envDecay i o).cnt.toNat = i.sustain.toNat then .sustain else o.est := by
  by_cases hlow : max i.sustain.toNat (o.cnt.toNat - i.decay.step) = i.sustain.toNat
  · rw [envDecay, if_neg (not_le.2 h), if_pos hs, if_pos hlow]
    exact ⟨hlow.symm, rfl, rfl, (if_pos rfl).symm⟩
  · have hcnt : (BitVec.ofNat 8 (max i.sustain.toNat (o.cnt.toNat - i.decay.step))).toNat =
        max i.sustain.toNat (o.cnt.toNat - i.decay.step) := Nat.mod_eq_of_lt (by omega)
    rw [envDecay, if_neg (not_le.2 h), if_pos hs, if_neg hlow]
    exact ⟨hcnt, rfl, rfl, (if_neg (hcnt.trans_ne hlow)).symm⟩

theorem envSustain_of_le (h : o.cnt.toNat ≤ i.sustain.toNat) : envSustain i o = o := by
  simp only [envSustain, if_neg (not_lt.2 h)]

theorem envSustain_of_lt (h : i.sustain.toNat < o.cnt.toNat) :
    envSustain i o = { o with est := .decay, sub := 0#32 } := by
  simp only [envSustain, if_pos h]

theorem envRelease_of_zero (h : o.cnt.toNat = 0) : envRelease i o = o := by
  simp only [envRelease, h, lt_irrefl, if_false]

theorem envRelease_of_wait (h : 0 < o.cnt.toNat)
    (hw : (o.sub + 1#32).toNat < i.release.hold * decayMult i.mult o.cnt) :
    envRelease i o = { o with sub := o.sub + 1#32 } := by
  simp only [envRelease, if_pos h, if_neg (not_le.2 hw)]

theorem envRelease_of_step (h : 0 < o.cnt.toNat)
    (hs : i.release.hold * decayMult i.mult o.cnt ≤ (o.sub + 1#32).toNat) :
    envRelease i o = { o with sub := 0#32, cnt := BitVec.ofNat 8 (o.cnt.toNat - i.release.step) } := by
  simp only [envRelease, if_pos h, if_pos hs]

theorem envRelease_est : (envRelease i o).est = o.est := by
  simp only [envRelease]; split
  · split <;> rfl
  · rfl

theorem envRelease_hc : (envRelease i o).hc = o.hc := by
  simp only [envRelease]; split
  · split <;> rfl
  · rfl

end Stages

/-! ### The envelope of a voice after a tick -/

section Tick
variable (k : Cfg) (c : Chip) (v : VoiceId)

theorem tick_est : ((tick k c).voices.get v).est = (envStep (envInput k c v) (c.voices.get v)).est :=
  have ⟨hest, _, _, _⟩ := tick_env k c v
  hest

theorem tick_cnt : ((tick k c).voices.get v).cnt = (envStep (envInput k c v) (c.voices.get v)).cnt :=
  have ⟨_, hcnt, _, _⟩ := tick_env k c v
  hcnt

theorem tick_hc : ((tick k c).voices.get v).hc = (envStep (envInput k c v) (c.voices.get v)).hc :=
  have ⟨_, _, hhc, _⟩ := tick_env k c v
  hhc

theorem tick_sub : ((tick k c).voices.get v).sub = (envStep (envInput k c v) (c.voices.get v)).sub :=
  have ⟨_, _, _, hsub⟩ := tick_env k c v
  hsub

end Tick

/-- Settles O35: the attack's two cases, on the voice as the gate leaves it. -/
theorem attackStepsAfterItsHold : Obligations.AttackStepsAfterItsHold := by
  intro k c v o o' p hc hg hest
  have hstep : envStep (envInput k c v) o = envAttack (envInput k c v) (attackStart o) := envStep_of_attack hg hest
  simp only [o', tick_est, tick_cnt, tick_hc, tick_sub]
  rw [hstep]
  refine ⟨fun hhold => envAttack_of_step hhold, fun hwait => ?_⟩
  rw [envAttack_of_wait hwait]
  exact ⟨rfl, rfl, rfl, rfl⟩

/-- Settles O36: the cases of decay and of sustain, which the gate leaves alone. -/
theorem decayAndSustainFollowTheSustainLevel : Obligations.DecayAndSustainFollowTheSustainLevel := by
  intro k c v hk o o' p low n mult hg
  have hlow : (envInput k c v).sustain.toNat = low := suslevel_toNat c v
  have hmult : decayMult (envInput k c v).mult o.cnt = mult := congrArg (decayMult · o.cnt) hk
  simp only [o', tick_est, tick_cnt, tick_hc, tick_sub]
  refine ⟨fun hd hle => ?_, fun hd hlt hwait => ?_, fun hd hlt hstep => ?_, fun hs hle => ?_, fun hs hlt => ?_⟩
  · rw [envStep_of_decay hg hd, envDecay_of_le (hlow ▸ hle)]
    exact ⟨rfl, rfl, rfl, rfl⟩
  · rw [envStep_of_decay hg hd, envDecay_of_wait (hlow ▸ hlt) (hmult ▸ hwait)]
    exact ⟨hd, rfl, rfl, rfl⟩
  · rw [envStep_of_decay hg hd]
    obtain ⟨hcnt, hsub, hhc, hest⟩ := envDecay_of_step (i := envInput k c v) (o := o) (hlow ▸ hlt) (hmult ▸ hstep)
    rw [hlow] at hcnt hest
    refine ⟨hcnt, hsub, hhc, ?_⟩
    by_cases hend : (envDecay (envInput k c v) o).cnt.toNat = low
    · simp [hest, hend]
    · simp [hest, hend, hd]
  · rw [envStep_of_sustain hg hs, envSustain_of_le (hlow ▸ hle)]
    exact ⟨hs, rfl, rfl, rfl⟩
  · rw [envStep_of_sustain hg hs, envSustain_of_lt (hlow ▸ hlt)]
    exact ⟨rfl, rfl, rfl, rfl⟩

/-- Above 0 the table of R209 has no seventh case. -/
theorem decayTable_of_pos {cnt : Byte} (h : 0 < cnt.toNat) :
    decayTable cnt = if 94 ≤ cnt.toNat then 1 else if 55 ≤ cnt.toNat then 2 else if 27 ≤ cnt.toNat then 4
      else if 15 ≤ cnt.toNat then 8 else if 7 ≤ cnt.toNat then 16 else 30 := by
  simp only [decayTable, if_pos (Nat.one_le_of_lt h)]

/-- Settles O37: the cases of the release, on the voice as the gate leaves it. -/
theorem releaseRunsDownToZero : Obligations.ReleaseRunsDownToZero := by
  intro k c v hk o o' p n mult sub hg
  have hstep : envStep (envInput k c v) o = envRelease (envInput k c v) (releaseStart o) := envStep_of_low hg
  have hmult (hpos : 0 < n) : decayMult (envInput k c v).mult (releaseStart o).cnt = mult :=
    (congrArg (decayMult · o.cnt) hk).trans (decayTable_of_pos hpos)
  simp only [o', tick_est, tick_cnt, tick_hc, tick_sub]
  rw [hstep]
  refine ⟨envRelease_est, envRelease_hc, fun hzero => ?_, fun hpos hwait => ?_, fun hpos hdue => ?_⟩
  · rw [envRelease_of_zero (o := releaseStart o) hzero]
    exact ⟨BitVec.eq_of_toNat_eq hzero, rfl⟩
  · rw [envRelease_of_wait (o := releaseStart o) hpos (hmult hpos ▸ hwait)]
    exact ⟨rfl, rfl⟩
  · rw [envRelease_of_step (o := releaseStart o) hpos (hmult hpos ▸ hdue)]
    have hlt : n < 2 ^ 8 := o.cnt.isLt
    exact ⟨Nat.mod_eq_of_lt (by omega), rfl⟩

/-! ### The time of an attack (R213, P2) -/

theorem rateMs_le (code : BitVec 4) : rateMs code ≤ 8000 := by
  revert code; decide

/-- A pair whose attack moves, and whose hold the 16-bit hold counter can reach. -/
structure RateFits (p : RatePair) : Prop where
  step_pos : 1 ≤ p.step
  hold_pos : 1 ≤ p.hold
  hold_lt : p.hold < 2 ^ 16

theorem ratePair_fits {k : Cfg} (code : BitVec 4) (h1 : 1 ≤ k.sampleRate) (h2 : k.sampleRate ≤ 2 ^ 20) :
    RateFits (ratePair k code) := by
  have hpos : 0 < rateMs code * k.sampleRate := Nat.mul_pos (one_le_rateMs code) h1
  have hnum : rateMs code * k.sampleRate ≤ 8000 * 2 ^ 20 := Nat.mul_le_mul (rateMs_le code) h2
  obtain hslow | hfast := le_or_gt 255000 (rateMs code * k.sampleRate)
  · rw [ratePair_of_slow hslow]
    exact ⟨le_rfl, show 1 ≤ _ / _ by omega, show _ / _ < _ by omega⟩
  · rw [ratePair_of_fast hfast]
    exact ⟨(Nat.one_le_div_iff hpos).2 (by omega), le_rfl, by norm_num⟩

section Iterate
variable (k : Cfg) (c : Chip) (v : VoiceId) (n : ℕ)

theorem iterate_tick_flagGate : flagGate ((tick k)^[n] c) v = flagGate c v := by
  simp only [flagGate, Chip.bit, iterate_tick_reg_voice]

theorem iterate_tick_atk : atk ((tick k)^[n] c) v = atk c v := by
  simp only [atk, iterate_tick_reg_voice]

end Iterate

/-- The ticks an attack from 0 takes (R213). -/
def attackTicks (p : RatePair) : ℕ := (255 + p.step - 1) / p.step * p.hold

/-- A voice `n` ticks into an attack from 0: `n / hold` steps are made, and `n % hold` ticks of the hold are over. -/
structure AttackAt (p : RatePair) (n : ℕ) (o : Voice) : Prop where
  rising : o.est = .release ∨ o.est = .attack
  held : (attackStart o).hc.toNat = n % p.hold
  counter : o.cnt.toNat = n / p.hold * p.step

section Attack
variable {k : Cfg} {c : Chip} {v : VoiceId} {p : RatePair} {n : ℕ} {o : Voice}

/-- Before its last tick an attack has made too few steps to stand at 255. -/
theorem steps_lt_of_lt_attackTicks (hp : RateFits p) (hn : n < attackTicks p) : n / p.hold * p.step < 255 := by
  have hsteps : n / p.hold < (255 + p.step - 1) / p.step := Nat.div_lt_of_lt_mul (Nat.mul_comm _ p.hold ▸ hn)
  have hlt : n / p.hold * p.step < 255 + p.step - 1 - (p.step - 1) := (Nat.lt_div_iff_mul_lt hp.step_pos).1 hsteps
  have hone : 1 ≤ p.step := hp.step_pos
  omega

/-- An attack ends with a whole hold, and by then it has made enough steps to stand at 255. -/
theorem attackTicks_eq_succ (hp : RateFits p) :
    ∃ m, attackTicks p = m + 1 ∧ m % p.hold + 1 = p.hold ∧ 255 ≤ (m / p.hold + 1) * p.step := by
  have hsteps : 255 ≤ (255 + p.step - 1) / p.step * p.step := by
    have hdm := Nat.div_add_mod' (255 + p.step - 1) p.step
    have hmod : (255 + p.step - 1) % p.step < p.step := Nat.mod_lt _ hp.step_pos
    omega
  have hhold : 1 ≤ p.hold := hp.hold_pos
  unfold attackTicks
  generalize (255 + p.step - 1) / p.step = t at hsteps ⊢
  obtain _ | t := t
  · omega
  · obtain ⟨hdiv, hmod⟩ : (t * p.hold + (p.hold - 1)) / p.hold = t ∧ (t * p.hold + (p.hold - 1)) % p.hold = p.hold - 1 :=
      (Nat.div_mod_unique hhold).2 ⟨by rw [Nat.mul_comm, Nat.add_comm], by omega⟩
    exact ⟨t * p.hold + (p.hold - 1), by rw [Nat.succ_mul]; omega, by omega, by rwa [hdiv]⟩

theorem attackAt_zero (p : RatePair) (hest : o.est = .release) (hcnt : o.cnt = 0#8) : AttackAt p 0 o where
  rising := .inl hest
  held := by simp [attackStart, hest]
  counter := by simp [hcnt]

/-- The hold counter does not wrap. -/
theorem AttackAt.hc_succ (h : AttackAt p n o) (hp : RateFits p) :
    ((attackStart o).hc + 1#16).toNat = n % p.hold + 1 := by
  have hlt : n % p.hold < p.hold := Nat.mod_lt n hp.hold_pos
  have hfit : p.hold < 2 ^ 16 := hp.hold_lt
  rw [BitVec.toNat_add, h.held]
  exact Nat.mod_eq_of_lt (show n % p.hold + 1 < 2 ^ 16 by omega)

/-- A tick inside a hold. -/
theorem AttackAt.succ_of_wait (h : AttackAt p n (c.voices.get v)) (hg : flagGate c v = true)
    (hk : ratePair k (atk c v) = p) (hp : RateFits p) (hwait : n % p.hold + 1 < p.hold) :
    AttackAt p (n + 1) ((tick k c).voices.get v) := by
  subst hk
  obtain ⟨-, hcase⟩ := attackStepsAfterItsHold k c v hg h.rising
  obtain ⟨hhc, hcnt, hest, -⟩ := hcase ((h.hc_succ hp).trans_lt hwait)
  have hn := Nat.div_add_mod n (ratePair k (atk c v)).hold
  obtain ⟨hdiv, hmod⟩ := (Nat.div_mod_unique (a := n + 1) (d := n / (ratePair k (atk c v)).hold) hp.hold_pos).2
    ⟨by omega, hwait⟩
  refine ⟨.inr hest, ?_, by rw [hcnt, h.counter, hdiv]⟩
  rw [attackStart, if_neg (by simp [hest]), hmod, ← h.hc_succ hp]
  exact congrArg BitVec.toNat hhc

/-- A tick that ends a hold. -/
theorem AttackAt.step_of_due (h : AttackAt p n (c.voices.get v)) (hg : flagGate c v = true)
    (hk : ratePair k (atk c v) = p) (hp : RateFits p) (hdue : n % p.hold + 1 = p.hold) :
    ((tick k c).voices.get v).hc = 0#16
      ∧ ((tick k c).voices.get v).cnt.toNat = min 255 ((n / p.hold + 1) * p.step)
      ∧ (((tick k c).voices.get v).cnt = 255#8 → ((tick k c).voices.get v).est = .decay)
      ∧ (((tick k c).voices.get v).cnt ≠ 255#8 → ((tick k c).voices.get v).est = .attack) := by
  subst hk
  obtain ⟨hcase, -⟩ := attackStepsAfterItsHold k c v hg h.rising
  obtain ⟨hhc, hcnt, hfull, hmore⟩ := hcase ((h.hc_succ hp).trans hdue).ge
  refine ⟨hhc, ?_, fun heq => (hfull heq).1, fun hne => (hmore hne).1⟩
  rw [hcnt, h.counter, Nat.succ_mul]

/-- A tick before the last keeps the voice on its way. -/
theorem AttackAt.succ (h : AttackAt p n (c.voices.get v)) (hg : flagGate c v = true) (hk : ratePair k (atk c v) = p)
    (hp : RateFits p) (hn : n + 1 < attackTicks p) : AttackAt p (n + 1) ((tick k c).voices.get v) := by
  have hmod_lt : n % p.hold < p.hold := Nat.mod_lt n hp.hold_pos
  obtain hwait | hdue : n % p.hold + 1 < p.hold ∨ n % p.hold + 1 = p.hold := by omega
  · exact h.succ_of_wait hg hk hp hwait
  · obtain ⟨hhc, hcnt, -, hmore⟩ := h.step_of_due hg hk hp hdue
    obtain ⟨hdiv, hmod⟩ := (Nat.div_mod_unique (a := n + 1) (d := n / p.hold + 1) (c := 0) hp.hold_pos).2
      ⟨by have := Nat.div_add_mod n p.hold; rw [Nat.mul_succ]; omega, hp.hold_pos⟩
    have hlt : (n / p.hold + 1) * p.step < 255 := hdiv ▸ steps_lt_of_lt_attackTicks hp hn
    rw [min_eq_right hlt.le] at hcnt
    have hest : ((tick k c).voices.get v).est = .attack := hmore fun heq => by
      rw [heq] at hcnt
      exact hlt.ne hcnt.symm
    refine ⟨.inr hest, ?_, by rw [hcnt, hdiv]⟩
    rw [attackStart, hhc, ite_self, hmod]
    rfl

/-- The tick after which the last hold is over. -/
theorem AttackAt.last (h : AttackAt p n (c.voices.get v)) (hg : flagGate c v = true) (hk : ratePair k (atk c v) = p)
    (hp : RateFits p) (hdue : n % p.hold + 1 = p.hold) (hfull : 255 ≤ (n / p.hold + 1) * p.step) :
    ((tick k c).voices.get v).cnt = 255#8 ∧ ((tick k c).voices.get v).est = .decay := by
  obtain ⟨-, hcnt, hdecay, -⟩ := h.step_of_due hg hk hp hdue
  rw [min_eq_left hfull] at hcnt
  have htop : ((tick k c).voices.get v).cnt = 255#8 := BitVec.eq_of_toNat_eq hcnt
  exact ⟨htop, hdecay htop⟩

theorem attackAt_iterate_tick (hg : flagGate c v = true) (hk : ratePair k (atk c v) = p) (hp : RateFits p)
    (hest : (c.voices.get v).est = .release) (hcnt : (c.voices.get v).cnt = 0#8) (hn : n < attackTicks p) :
    AttackAt p n (((tick k)^[n] c).voices.get v) := by
  induction n with
  | zero => exact attackAt_zero p hest hcnt
  | succ n ih =>
    rw [Function.iterate_succ_apply']
    exact (ih (by omega)).succ ((iterate_tick_flagGate k c v n).trans hg)
      ((congrArg (ratePair k) (iterate_tick_atk k c v n)).trans hk) hp hn

end Attack

/-- Settles O38: no tick before the last brings the counter to 255, and the last one does. -/
theorem attackTakesExactlyItsRateTime : Obligations.AttackTakesExactlyItsRateTime := by
  intro k c v h1 h2 hg hest hcnt p total
  have hp : RateFits p := ratePair_fits _ h1 h2
  have hway {n : ℕ} (hn : n < total) : AttackAt p n (((tick k)^[n] c).voices.get v) :=
    attackAt_iterate_tick hg rfl hp hest hcnt hn
  obtain ⟨m, htotal, hdue, hfull⟩ : ∃ m, total = m + 1 ∧ _ ∧ _ := attackTicks_eq_succ hp
  refine ⟨fun n hn => ?_, ?_⟩
  · rw [(hway hn).counter]
    exact steps_lt_of_lt_attackTicks hp hn
  · rw [htotal, Function.iterate_succ_apply']
    exact (hway (by omega)).last ((iterate_tick_flagGate k c v m).trans hg)
      (congrArg (ratePair k) (iterate_tick_atk k c v m)) hp hdue hfull

end Sys2Proof.Machine
end

section
/-! PROOFS. The noise generators (R221): the next shift register in the arithmetic of the rule, and what a tick makes of the
two accumulators and the output. -/

namespace Sys2Proof.Machine

open Sys2Proof

/-- Bit 0 takes the feedback bit, every other bit the one below it. -/
theorem noiseShift_eq_shiftLeft_or (n : BitVec 24) :
    noiseShift n = n <<< 1 ||| (BitVec.ofBool (noiseFeedback n)).setWidth 24 := by
  refine BitVec.eq_of_getLsbD_eq fun i hi => ?_
  cases i with
  | zero => rw [noiseShift_bit_zero]; simp
  | succ i =>
    rw [noiseShift_bit_succ n (by omega)]
    simp [hi, BitVec.getLsbD_eq_getElem (Nat.lt_of_succ_lt hi)]

/-- Settles O29: both accumulators by the tick's noise lemma, and the output is the upper half of their exclusive or. -/
theorem noiseGeneratorsAdvanceEveryTick : Obligations.NoiseGeneratorsAdvanceEveryTick := by
  intro k c v o o' fb
  obtain ⟨hn1, hn2, hnout⟩ := tick_noise k c v
  rw [← hn1] at hn2 hnout
  rw [← hn2] at hnout
  have hshift : o'.n1 = o.n1 <<< 1 ||| (BitVec.ofBool fb).setWidth 24 := hn1.trans (noiseShift_eq_shiftLeft_or o.n1)
  have hupper : o'.nout = ramp12 (o'.n1 ^^^ o'.n2) := hnout
  exact ⟨hshift, hn2, hupper ▸ ramp12_toNat _⟩

end Sys2Proof.Machine
end

section
/-! PROOFS. The analogue stage (R230 to R250): the cutoff times 2048 is the register field again, because both operations
are exact; and step T7 written on the chip before the tick with the voices after it. -/

namespace Sys2Proof.Machine

open Sys2Proof

/-! ### The cutoff and its nearest encoding (R236) -/

/-- A product that is a natural number of at most 24 bits is not rounded. -/
theorem fmul_eq_natCast {a b : F32} {n : ℕ} (ha : isFinite a = true) (hb : isFinite b = true)
    (h : f32Value a * f32Value b = n) (hn : n < 2 ^ 24) : isFinite (fmul a b) = true ∧ f32Value (fmul a b) = n := by
  obtain ⟨n1, m1, e1, h1, -⟩ := unpack_of_finite ha
  obtain ⟨n2, m2, e2, h2, -⟩ := unpack_of_finite hb
  have hpack : fmul a b = roundPack (n1 ^^ n2) (m1 * m2) (e1 + e2) := by rw [fmul, h1, h2]
  have hexact : signed (n1 ^^ n2) (m1 * m2 : ℕ) * 2 ^ (e1 + e2) = n := by
    rw [← h, f32Value_eq_signed_mul h1, f32Value_eq_signed_mul h2, Nat.cast_mul, ← signed_mul_signed,
      zpow_add₀ (by norm_num)]
    ring
  have hmag : ((m1 * m2 : ℕ) : ℚ) * 2 ^ (e1 + e2) = n * 2 ^ (0 : ℤ) := by
    rw [← abs_signed_mul_zpow (n1 ^^ n2), hexact, Nat.abs_cast, zpow_zero, mul_one]
  rw [hpack, ← hexact]
  exact roundPack_of_representable _ hmag hn (by norm_num) (by norm_num)

theorem f2i_of_natCast {x : F32} {n : ℕ} (hx : isFinite x = true) (h : f32Value x = n) : f2i x = n :=
  NearestEven.eq_of_int (by simpa only [h, Int.cast_natCast] using nearestEven_f2i hx)

theorem isFinite_cutoff (c : Chip) : isFinite (cutoff c) = true :=
  (i2f_div_2048 ((fc11 c).isLt.trans (by norm_num))).1

theorem f32Value_f2048 : f32Value f2048 = 2048 := by
  rw [f32Value_of_unpack (show unpack f2048 = .fin false (2 ^ 23) (-12) by decide)]; norm_num

/-- Settles O22: the product with 2048 is exact, and the two bytes stand side by side in the field. -/
theorem cutoffRoundTripRecoversTheRegisterPair : Obligations.CutoffRoundTripRecoversTheRegisterPair := by
  intro c
  have hprod : f32Value (cutoff c) * f32Value f2048 = (fc11 c).toNat := by
    rw [f32Value_cutoff, f32Value_f2048, div_mul_cancel₀ _ (by norm_num)]
  obtain ⟨hfin, hval⟩ := fmul_eq_natCast (isFinite_cutoff c) (by decide) hprod ((fc11 c).isLt.trans (by norm_num))
  exact ⟨f2i_of_natCast hfin hval, BitVec.extractLsb'_append_eq_left, BitVec.extractLsb'_append_eq_right⟩

/-! ### What the analogue stage reads (R230, R234) -/

/-- The chip as step T7 reads it: the registers, parameters and accumulators of the chip before the tick, the voices of
the chip after it. -/
def analogueInput (k : Cfg) (c : Chip) : Chip := { c with voices := (tick k c).voices }

/-- The digital part leaves in the registers, but for bits no rule reads, what the chip held before the tick. -/
theorem sameRead_tickDigital (k : Cfg) (c : Chip) :
    SameRead (tickDigital k c) { c with voices := (tickDigital k c).voices } where
  voices := rfl
  params := rfl
  filter := rfl
  regs a := by
    by_cases h1 : a.val = 0x1B
    · simp [h1, unreadBits]
    by_cases h2 : a.val = 0x1C
    · simp [h2, unreadBits]
    · exact congrArg (· &&& _) (tick_reg_of_ne k c a.isLt h1 h2)

theorem tick_filter (k : Cfg) (c : Chip) :
    (tick k c).filter = (filterStep (analogueInput k c) (filterInput (analogueInput k c))).1 :=
  congrArg Prod.fst (sameRead_tickDigital k c).filterStep_eq

theorem tick_sample (k : Cfg) (c : Chip) :
    (tick k c).sample = outputSample c
      (fadd (filterStep (analogueInput k c) (filterInput (analogueInput k c))).2 (bypassSum (analogueInput k c))) :=
  (sameRead_tickDigital k c).tickAnalogue_sample

theorem bypassed_iff (c : Chip) (v : VoiceId) :
    bypassed c v = true ↔ flagFilt c v = false ∧ ¬(v = .v3 ∧ flagV3off c = true) := by
  simp [bypassed, imp_iff_not_or]

/-- The routing sums as folds over the voices in order (R234). -/
theorem filteredSum_eq_foldl (c : Chip) : filteredSum c = [VoiceId.v1, .v2, .v3].foldl
    (fun x v => if flagFilt c v then fadd x (analogueValue c v) else x) 0#32 := rfl

theorem bypassSum_eq_foldl (c : Chip) : bypassSum c = [VoiceId.v1, .v2, .v3].foldl
    (fun x v => if flagFilt c v = false ∧ ¬(v = .v3 ∧ flagV3off c = true) then fadd x (analogueValue c v) else x)
    0#32 := by
  simp only [← bypassed_iff]
  rfl

theorem filterStep_of_svf {c : Chip} (h : flagLadder c = false) (x : F32) : filterStep c x = svfStep c x := by
  rw [filterStep, h, if_neg Bool.false_ne_true]

theorem filterStep_of_ladder {c : Chip} (h : flagLadder c = true) (x : F32) : filterStep c x = ladderStep c x := by
  rw [filterStep, h, if_pos rfl]

/-- Settles O39: the stage's own input is the chip before the tick with the voices after it, so each topology is its step
on that chip, and the bypass sum the fold over the voices that are not filtered. -/
theorem analogueStageFollowsTheSelectedTopology : Obligations.AnalogueStageFollowsTheSelectedTopology := by
  intro k c c' a fin byp nz x f s sampleOf
  have hin : filterInput (analogueInput k c) = x := by
    rw [filterInput, filteredSum_eq_foldl]
    rfl
  have hbyp : bypassSum (analogueInput k c) = byp := bypassSum_eq_foldl _
  have hfilter : c'.filter = (filterStep (analogueInput k c) x).1 := hin ▸ tick_filter k c
  have hsample : c'.sample = sampleOf (filterStep (analogueInput k c) x).2 := by
    rw [tick_sample, hin, hbyp]
    rfl
  refine ⟨fun hsvf => ?_, fun hladder => ?_⟩
  · have hstep : filterStep (analogueInput k c) x = svfStep (analogueInput k c) x :=
      filterStep_of_svf (c := analogueInput k c) hsvf x
    rw [hfilter, hsample, hstep]
    exact ⟨rfl, rfl⟩
  · have hstep : filterStep (analogueInput k c) x = ladderStep (analogueInput k c) x :=
      filterStep_of_ladder (c := analogueInput k c) hladder x
    rw [hfilter, hsample, hstep]
    exact ⟨rfl, rfl⟩

end Sys2Proof.Machine
end

section
/-! PROOFS. The events and the engine clock on a live and on a broken pair (R263 to R267), and the controller map entry by
entry (R280 to R289, R297 to R299). -/

namespace Sys2Proof.Machine

open Sys2Proof

/-! ### Events on a pair -/

section Pair
variable {s : State} {a m : Chip}

/-- An event leaves what its effect on the engine of the pair leaves, field by field. -/
theorem evCommand_of_effect (hp : PairOf s a m) {f : Engine → Engine} {vm' : VoiceManager} {a' m' : Chip}
    (hf : f { vm := s.vm, audio := a, modulation := m } = { vm := vm', audio := a', modulation := m' }) :
    evCommand f s = .next (s.eventDone vm' a' m') := by
  rw [evCommand_of_pair f hp, hf]

/-- An event that leaves the chips alone leaves the pool alone. -/
theorem eventDone_of_pair (hp : PairOf s a m) (vm' : VoiceManager) :
    s.eventDone vm' a m = { s with vm := vm', rsp := [.ok 0#32] } := by
  rw [State.eventDone, pool_set_pair hp]

theorem evCommand_ok (hp : PairOf s a m) {f : Engine → Engine} {t : State} (h : evCommand f s = .next t) :
    t.rsp = [.ok 0#32] := by
  rw [evCommand_of_pair f hp] at h
  cases h
  rfl

theorem execCtrlChange_of_le {idx : BitVec 7} (hidx : idx.toNat ≤ 99) (val : BitVec 14) (s : State) :
    execCtrlChange idx val s = evCommand (fun e => ctrlEffect e idx.toNat val) s :=
  if_neg (by omega)

theorem execCtrlChange_of_gt {idx : BitVec 7} (hidx : 99 < idx.toNat) (val : BitVec 14) (s : State) :
    execCtrlChange idx val s = .next (s.failed .badCtrl 0xFFFFFFFF#32) :=
  if_pos hidx

/-- CTRL_CHANGE leaves what the entry's effect on the engine of the pair leaves. -/
theorem ctrlChange_of_effect (hp : PairOf s a m) {idx : BitVec 7} (hidx : idx.toNat ≤ 99) {val : BitVec 14}
    {vm' : VoiceManager} {a' m' : Chip}
    (hf : ctrlEffect { vm := s.vm, audio := a, modulation := m } idx.toNat val =
      { vm := vm', audio := a', modulation := m' }) :
    exec (.ctrlChange idx val) s = .next (s.eventDone vm' a' m') :=
  (execCtrlChange_of_le hidx val s).trans (evCommand_of_effect hp hf)

end Pair

/-- Settles O15: an event and CLK fail by the pair check; on a live pair each answers successes only. -/
theorem aBrokenPairFailsEventsAndClock : Obligations.ABrokenPairFailsEventsAndClock := by
  refine ⟨fun s hb => ⟨fun _ _ => evCommand_of_broken _ hb, fun _ _ => evCommand_of_broken _ hb,
    fun idx val hidx => (execCtrlChange_of_le hidx val s).trans (evCommand_of_broken _ hb), execClk_of_broken hb⟩,
    fun s t a m i hp hop hcreate hidx h r hr => ?_⟩
  cases i with
  | create b q => exact absurd rfl (hcreate b q)
  | noteOn key vel =>
    rw [evCommand_ok hp h, List.mem_singleton] at hr
    rw [hr]; rfl
  | noteOff key vel =>
    rw [evCommand_ok hp h, List.mem_singleton] at hr
    rw [hr]; rfl
  | ctrlChange idx val =>
    have h' := (execCtrlChange_of_le (hidx idx val rfl) val s).symm.trans h
    rw [evCommand_ok hp h', List.mem_singleton] at hr
    rw [hr]; rfl
  | clk =>
    have h' := (execClk_of_pair hp).symm.trans h
    cases h'
    obtain ⟨x, -, rfl⟩ := List.mem_map.1 hr
    rfl
  | _ => cases hop

/-! ### The key map (R264, R266) -/

/-- A key set and set again to what it was is as it was. -/
theorem keymap_set_set_of_isDown {vm : VoiceManager} {key : Key} {b : Bool} (h : vm.isDown key = b) (c : Bool) :
    (vm.keymap.set key.toNat c key.isLt).set key.toNat b key.isLt = vm.keymap := by
  subst h
  refine Vector.ext fun i hi => ?_
  simp only [Vector.getElem_set]
  split
  · next hk => subst hk; rfl
  · rfl

/-- NOTE_ON (R264) writes down that a key is down, and its velocity. -/
theorem noteOn_of_pair {s : State} {a m : Chip} (hp : PairOf s a m) (key : Key) (vel : Velocity) :
    exec (.noteOn key vel) s = .next { s with
      vm := { s.vm with keymap := s.vm.keymap.set key.toNat true key.isLt, keyvel := s.vm.keyvel.set key.toNat vel key.isLt }
      rsp := [.ok 0#32] } :=
  (evCommand_of_effect hp rfl).trans (congrArg _ (eventDone_of_pair hp _))

/-- NOTE_OFF (R266) writes down that a key is up. -/
theorem noteOff_of_pair {s : State} {a m : Chip} (hp : PairOf s a m) (key : Key) (vel : Velocity) :
    exec (.noteOff key vel) s = .next { s with
      vm := { s.vm with keymap := s.vm.keymap.set key.toNat false key.isLt }, rsp := [.ok 0#32] } :=
  (evCommand_of_effect hp rfl).trans (congrArg _ (eventDone_of_pair hp _))

/-- Settles O42: each event puts the pair back as it was, and the second of an undone pair restores the key. -/
theorem noteEventsEditTheKeyMapOnly : Obligations.NoteEventsEditTheKeyMapOnly := by
  refine ⟨fun s a m key vel hp => ⟨noteOn_of_pair hp key vel, noteOff_of_pair hp key vel⟩,
    fun s a m key vel vel' hp => ⟨fun hup => ?_, fun hdown => ?_⟩⟩
  · have hon := noteOn_of_pair hp key vel
    generalize ht : ({ s with vm := _, rsp := _ } : State) = t at hon
    have hp' : PairOf t a m := ht ▸ hp
    refine ⟨t, _, hon, noteOff_of_pair hp' key vel', ?_⟩
    subst ht
    simp only [keymap_set_set_of_isDown hup]
  · have hoff := noteOff_of_pair hp key vel'
    generalize ht : ({ s with vm := _, rsp := _ } : State) = t at hoff
    have hp' : PairOf t a m := ht ▸ hp
    refine ⟨t, _, hoff, noteOn_of_pair hp' key vel, ?_⟩
    subst ht
    simp only [keymap_set_set_of_isDown hdown]

/-! ### The controller map by its ranges (R280) -/

theorem regOfAddr_addr (r : Reg) : regOfAddr r.addr = some r := by
  cases r with
  | voice v r => cases v <;> cases r <;> rfl
  | _ => rfl

theorem Reg.addr_lt_30 (r : Reg) : r.addr < 30 := by
  have := r.addr_top
  omega

/-- Entries 0 to 29 stand at the addresses of the registers (R281). -/
theorem ctrlEffect_audio (e : Engine) (r : Reg) (val : BitVec 14) :
    ctrlEffect e r.addr val = ctrlAudio e r (val.extractLsb' 0 8) := by
  rw [ctrlEffect, if_pos r.addr_lt_30, regOfAddr_addr]

/-- Entries 30 to 59 stand 30 above them (R282). -/
theorem ctrlEffect_modulation (e : Engine) (r : Reg) (val : BitVec 14) :
    ctrlEffect e (30 + r.addr) val = ctrlModulation e r (val.extractLsb' 0 8) := by
  have := r.addr_lt_30
  rw [ctrlEffect, if_neg (by omega), if_pos (by omega), Nat.add_sub_cancel_left, regOfAddr_addr]

/-- The other entries are the VoiceManager's own. -/
theorem ctrlEffect_manager (e : Engine) {idx : ℕ} (h : 60 ≤ idx) (val : BitVec 14) :
    ctrlEffect e idx val = ctrlManager e idx val := by
  rw [ctrlEffect, if_neg (by omega), if_neg (by omega)]

/-- Entries 96 to 99 have no effect (R289). -/
theorem ctrlManager_of_reserved (e : Engine) {idx : ℕ} (h : 96 ≤ idx) (val : BitVec 14) : ctrlManager e idx val = e := by
  unfold ctrlManager
  split
  case h_20 => exact if_neg (by omega)
  all_goals omega

/-- Settles O16: a reserved entry puts the engine back as it was; the index check precedes the pair check. -/
theorem reservedAndUnknownControllers : Obligations.ReservedAndUnknownControllers := by
  refine ⟨fun s a m idx val hp hlo hhi => ?_, fun s idx val h => execCtrlChange_of_gt h val s⟩
  have heff : ctrlEffect { vm := s.vm, audio := a, modulation := m } idx.toNat val =
      { vm := s.vm, audio := a, modulation := m } := by
    rw [ctrlEffect_manager _ (by omega), ctrlManager_of_reserved _ hlo]
  rw [ctrlChange_of_effect hp hhi heff, eventDone_of_pair hp]

/-! ### Controllers 0 to 59 (R281, R282) -/

section Registers
variable {s : State} {a m : Chip} {val : BitVec 14}

/-- An entry of the audio chip leaves what `ctrlAudio` leaves. -/
theorem audioController (hp : PairOf s a m) {idx : BitVec 7} (r : Reg) (hidx : idx = BitVec.ofNat 7 r.addr)
    {vm' : VoiceManager} {a' : Chip}
    (h : ctrlAudio { vm := s.vm, audio := a, modulation := m } r (val.extractLsb' 0 8) =
      { vm := vm', audio := a', modulation := m }) :
    exec (.ctrlChange idx val) s = .next (s.eventDone vm' a' m) := by
  have hlt := r.addr_lt_30
  have hnat : idx.toNat = r.addr := by rw [hidx, BitVec.toNat_ofNat]; omega
  exact ctrlChange_of_effect hp (by omega) (by rw [hnat, ctrlEffect_audio, h])

/-- An entry of the modulation chip leaves what `ctrlModulation` leaves. -/
theorem modulationController (hp : PairOf s a m) {idx : BitVec 7} (r : Reg) (hidx : idx = BitVec.ofNat 7 (30 + r.addr))
    {m' : Chip}
    (h : ctrlModulation { vm := s.vm, audio := a, modulation := m } r (val.extractLsb' 0 8) =
      { vm := s.vm, audio := a, modulation := m' }) :
    exec (.ctrlChange idx val) s = .next (s.eventDone s.vm a m') := by
  have hlt := r.addr_lt_30
  have hnat : idx.toNat = 30 + r.addr := by rw [hidx, BitVec.toNat_ofNat]; omega
  exact ctrlChange_of_effect hp (by omega) (by rw [hnat, ctrlEffect_modulation, h])

end Registers

/-- The low byte of a pulse width replaced (R281). -/
theorem pwBase_low (p : BitVec 12) (b : Byte) : p.extractLsb' 8 4 ++ b = (p &&& 0xF00#12) ||| b.setWidth 12 := by
  refine BitVec.eq_of_getLsbD_eq fun i hi => ?_
  rw [BitVec.getLsbD_append]
  interval_cases i <;> simp

/-- The high nibble of a pulse width replaced (R281). -/
theorem pwBase_high (p : BitVec 12) (b : Byte) :
    b.extractLsb' 0 4 ++ p.extractLsb' 0 8 = (p &&& 0x0FF#12) ||| (b.setWidth 12 <<< 8) := by
  refine BitVec.eq_of_getLsbD_eq fun i hi => ?_
  rw [BitVec.getLsbD_append]
  interval_cases i <;> simp

/-- The low bits of the cutoff replaced (R281). -/
theorem fcBase_low (f : BitVec 11) (b : Byte) :
    f.extractLsb' 3 8 ++ b.extractLsb' 0 3 = (f &&& 0x7F8#11) ||| (b &&& 0x07#8).setWidth 11 := by
  refine BitVec.eq_of_getLsbD_eq fun i hi => ?_
  rw [BitVec.getLsbD_append]
  interval_cases i <;> simp

/-- The high byte of the cutoff replaced (R281). -/
theorem fcBase_high (f : BitVec 11) (b : Byte) :
    b ++ f.extractLsb' 0 3 = (f &&& 0x007#11) ||| (b.setWidth 11 <<< 3) := by
  refine BitVec.eq_of_getLsbD_eq fun i hi => ?_
  rw [BitVec.getLsbD_append]
  interval_cases i <;> simp

/-- A byte with bit 7 cleared does not reset the chip (R147, R281, R282). -/
theorem chipWrite_control_masked (c : Chip) (b : Byte) :
    chipWrite c .control (b &&& 0x7F#8) = c.setReg .control (b &&& 0x7F#8) :=
  chipWrite_control_of_clear c (msb_and_7F b)

/-- Settles O43: each entry by the register it stands for. -/
theorem audioControllersKeepTheOwnedRegisters : Obligations.AudioControllersKeepTheOwnedRegisters := by
  intro s a m val hp b written
  refine ⟨?_, fun x hx => ?_, fun x hx => ?_, fun x hx => ?_, ?_, ?_, ?_, ?_⟩
  · simp only [List.forall_mem_cons, List.not_mem_nil, false_implies, implies_true, and_true]
    exact ⟨audioController hp (.voice .v1 .freqLo) rfl rfl, audioController hp (.voice .v1 .freqHi) rfl rfl,
      audioController hp (.voice .v2 .freqLo) rfl rfl, audioController hp (.voice .v2 .freqHi) rfl rfl,
      audioController hp (.voice .v3 .freqLo) rfl rfl, audioController hp (.voice .v3 .freqHi) rfl rfl,
      audioController hp .osc3 rfl rfl, audioController hp .env3 rfl rfl⟩
  · have haddr : x.2 = BitVec.ofNat 7 (Reg.voice x.1 .pwLo).addr := by revert x; decide
    rw [← pwBase_low]
    exact audioController hp _ haddr rfl
  · have haddr : x.2 = BitVec.ofNat 7 (Reg.voice x.1 .pwHi).addr := by revert x; decide
    rw [← pwBase_high]
    exact audioController hp _ haddr rfl
  · have haddr : x.2.1 = BitVec.ofNat 7 (Reg.voice x.1 .ctrl).addr
        ∧ x.2.2 = ⟨(Reg.voice x.1 .ctrl).addr, Reg.addr_lt _⟩ := by revert x; decide
    obtain ⟨hidx, hreg⟩ := haddr
    rw [hreg]
    exact audioController hp _ hidx rfl
  · simp only [List.forall_mem_cons, List.not_mem_nil, false_implies, implies_true, and_true]
    exact ⟨audioController hp (.voice .v1 .ad) rfl rfl, audioController hp (.voice .v1 .sr) rfl rfl,
      audioController hp (.voice .v2 .ad) rfl rfl, audioController hp (.voice .v2 .sr) rfl rfl,
      audioController hp (.voice .v3 .ad) rfl rfl, audioController hp (.voice .v3 .sr) rfl rfl,
      audioController hp .resFilt rfl rfl, audioController hp .modeVol rfl rfl,
      audioController hp .rsv19 rfl rfl, audioController hp .rsv1A rfl rfl⟩
  · rw [← fcBase_low]
    exact audioController hp .fcLo rfl rfl
  · rw [← fcBase_high]
    exact audioController hp .fcHi rfl rfl
  · refine audioController hp .control rfl ?_
    rw [ctrlAudio, Engine.writeAudio, chipWrite_control_masked]
    rfl

/-- Every address up to `0x1A` is that of a register a write stores into (R23). -/
theorem exists_stored_reg {n : ℕ} (h : n ≤ 0x1A) : ∃ r : Reg, r.addr = n ∧ r ≠ .osc3 ∧ r ≠ .env3 ∧ r ≠ .control := by
  have hsome : ∃ r, regOfAddr n = some r ∧ r.addr = n := by
    interval_cases n <;> exact ⟨_, rfl, rfl⟩
  obtain ⟨r, -, haddr⟩ := hsome
  refine ⟨r, haddr, ?_, ?_, ?_⟩ <;> rintro rfl <;> exact absurd haddr (by simp only [Reg.addr]; omega)

/-- An entry of the modulation chip writes a register that is no tap and not CONTROL (R282). -/
theorem ctrlModulation_of_stored {r : Reg} (hr : r ≠ .osc3 ∧ r ≠ .env3 ∧ r ≠ .control) (e : Engine) (b : Byte) :
    ctrlModulation e r b = e.writeModulation r b := by
  obtain ⟨hosc, henv, hctl⟩ := hr
  cases r with
  | osc3 => exact absurd rfl hosc
  | env3 => exact absurd rfl henv
  | control => exact absurd rfl hctl
  | _ => rfl

/-- Settles O44: each entry by the register it stands for. -/
theorem modulationControllersWriteTheRegister : Obligations.ModulationControllersWriteTheRegister := by
  intro s a m val hp b
  refine ⟨fun n hn => ?_, modulationController hp .osc3 rfl rfl, modulationController hp .env3 rfl rfl,
    modulationController hp .control rfl ?_⟩
  · obtain ⟨n, hlt⟩ := n
    obtain ⟨r, rfl, hr⟩ := exists_stored_reg hn
    refine modulationController hp r rfl ?_
    rw [ctrlModulation_of_stored hr, Engine.writeModulation, chipWrite_of_stored hr]
    rfl
  · rw [ctrlModulation, Engine.writeModulation, chipWrite_control_masked]
    rfl

/-! ### Controllers 61 to 95 (R284 to R288, R297 to R299) -/

/-- An entry of the VoiceManager's own leaves the chips alone when it writes a field of the VoiceManager. -/
theorem managerController {s : State} {a m : Chip} {val : BitVec 14} (hp : PairOf s a m) {idx : BitVec 7}
    (hlo : 60 ≤ idx.toNat) (hhi : idx.toNat ≤ 99) {vm' : VoiceManager}
    (h : ctrlManager { vm := s.vm, audio := a, modulation := m } idx.toNat val =
      { vm := vm', audio := a, modulation := m }) :
    exec (.ctrlChange idx val) s = .next (s.eventDone vm' a m) :=
  ctrlChange_of_effect hp hhi (by rw [ctrlEffect_manager _ hlo, h])

/-- Entries 74 to 90 write one route bit (R297). -/
theorem ctrlManager_of_route (e : Engine) {bit : ℕ} (h : bit < 17) (val : BitVec 14) :
    ctrlManager e (74 + bit) val =
      { e with vm := { e.vm with routes := setRoute e.vm.routes bit (val != 0#14) } } := by
  have hbit : 74 + bit - 74 = bit := by omega
  unfold ctrlManager
  split
  case h_20 => rw [if_pos (by omega), hbit]
  all_goals omega

/-- Writing one bit leaves the other bits. -/
theorem setRoute_getElem (routes : BitVec 17) (bit : ℕ) (on : Bool) {j : ℕ} (hj : j < 17) :
    (setRoute routes bit on)[j] = if j = bit then on else routes[j] := by
  have hmask : (1#17 <<< bit)[j] = decide (j = bit) := by
    rw [BitVec.getElem_shiftLeft, BitVec.getElem_one]
    grind
  cases on <;> by_cases hb : j = bit <;> simp [setRoute, hmask, hb]

/-- A transposition is centred on the 24th of its 48 steps (R287). -/
theorem transposeOfVal_eq (val : BitVec 14) : transposeOfVal val = BitVec.ofInt 8 ((min val.toNat 48 : ℕ) - 24) := by
  rw [transposeOfVal, clampInt_eq_max_min _ (by norm_num)]
  congr 1
  omega

theorem bne_eq_decide_ne (val : BitVec 14) : (val != 0#14) = decide (val ≠ 0#14) := by
  rw [bne, decide_not]
  rfl

/-- Settles O46: each entry is one arm of `ctrlManager`. -/
theorem managerControllersWriteOneField : Obligations.ManagerControllersWriteOneField := by
  intro s a m val hp done centred unit
  refine ⟨managerController hp (by decide) (by decide) rfl, ?_, ?_, ?_, managerController hp (by decide) (by decide) rfl,
    ?_, ?_, fun bit => ?_, managerController hp (by decide) (by decide) rfl, managerController hp (by decide) (by decide) rfl,
    managerController hp (by decide) (by decide) rfl, managerController hp (by decide) (by decide) rfl,
    managerController hp (by decide) (by decide) rfl, ?_, ?_⟩
  · simp only [List.forall_mem_cons, List.not_mem_nil, false_implies, implies_true, and_true]
    exact ⟨managerController hp (by decide) (by decide) rfl, managerController hp (by decide) (by decide) rfl,
      managerController hp (by decide) (by decide) rfl⟩
  · simp only [List.forall_mem_cons, List.not_mem_nil, false_implies, implies_true, and_true]
    exact ⟨managerController hp (by decide) (by decide) rfl, managerController hp (by decide) (by decide) rfl,
      managerController hp (by decide) (by decide) rfl⟩
  · simp only [List.forall_mem_cons, List.not_mem_nil, false_implies, implies_true, and_true, ← transposeOfVal_eq]
    exact ⟨managerController hp (by decide) (by decide) rfl, managerController hp (by decide) (by decide) rfl,
      managerController hp (by decide) (by decide) rfl⟩
  · exact managerController hp (by decide) (by decide) (by rw [← bne_eq_decide_ne]; rfl)
  · exact managerController hp (by decide) (by decide) (by rw [← bne_eq_decide_ne]; rfl)
  · have hidx : (BitVec.ofNat 7 (74 + bit.val)).toNat = 74 + bit.val := by
      rw [BitVec.toNat_ofNat]; omega
    refine ⟨setRoute s.vm.routes bit (val != 0#14), managerController hp (by omega) (by omega) ?_, ?_, fun j hj => ?_⟩
    · rw [hidx, ctrlManager_of_route _ bit.isLt]
    · exact (setRoute_getElem _ _ _ bit.isLt).trans ((if_pos rfl).trans (bne_eq_decide_ne val))
    · exact (setRoute_getElem _ _ _ j.isLt).trans (if_neg fun h => hj (Fin.ext h))
  · rintro rfl
    decide
  · rintro rfl
    decide

end Sys2Proof.Machine
end

section
/-! PROOFS. Voice assignment (R271 to R277, R283): `Free` and `Assign` written out, freeing any set of the voices, and from
these a change of the key mode, a press and a release. -/

namespace Sys2Proof.Machine

open Sys2Proof

/-! ### `Free` and `Assign` (R271, R272) -/

theorem engine_eq_mk {e : Engine} {vm : VoiceManager} {a m : Chip} (hvm : e.vm = vm) (ha : e.audio = a)
    (hm : e.modulation = m) : e = { vm := vm, audio := a, modulation := m } := by
  subst hvm ha hm
  rfl

/-- The table of the control registers, as the statements write it, names each voice's own (R23). -/
theorem ctrlAddr_of_mem {x : VoiceId × Fin 32} (hx : x ∈ [(VoiceId.v1, (0x04 : Fin 32)), (.v2, 0x0B), (.v3, 0x12)]) :
    ∃ v, x = (v, ⟨(Reg.voice v .ctrl).addr, Reg.addr_lt _⟩) := by
  have h : x.2 = ⟨(Reg.voice x.1 .ctrl).addr, Reg.addr_lt _⟩ := by
    revert x
    decide
  exact ⟨x.1, Prod.ext rfl h⟩

/-- The policy state of an assigned voice with its gate open, field by field (R272). -/
theorem assignedVoice_with_actrl (c : Cfg) (p : PolicyVoice) (k : Key) (vel : Velocity) (tgt : F32) (b : Byte) :
    { assignedVoice c p k vel tgt with actrl := b } =
      if p.glideN = 0#32 then
        { p with vkey := some k, vvel := vel, ftgt := tgt, actrl := b, fcur := tgt, gleft := 0#32, gmul := f1 }
      else { p with
        vkey := some k, vvel := vel, ftgt := tgt, actrl := b
        gmul := glideMul c.glide (fdiv tgt p.fcur) p.glideN.toNat, gleft := p.glideN } := by
  unfold assignedVoice
  split <;> rfl

/-- Settles O49: the three parts of the engine after `Free` and after `Assign`. -/
theorem freeAndAssignMoveTheGate : Obligations.FreeAndAssignMoveTheGate := by
  refine ⟨fun e x hx => ?_, fun c e key x hx => ?_⟩
  · obtain ⟨v, rfl⟩ := ctrlAddr_of_mem hx
    exact engine_eq_mk (freeVoice_vm e v) (freeVoice_audio e v) (freeVoice_modulation e v)
  · obtain ⟨v, rfl⟩ := ctrlAddr_of_mem hx
    refine engine_eq_mk ?_ (assignVoice_audio c e v key) (assignVoice_modulation c e v key)
    rw [assignVoice_vm, assignedVoice_with_actrl]
    rfl

/-! ### Freeing a set of voices -/

/-- `Free(v)` where `f` asks for it. -/
def freeIf (f : VoiceId → Bool) (e : Engine) (v : VoiceId) : Engine := if f v then freeVoice e v else e

/-- `Free` for the voices `f` asks for, in order: what a release and a change of the key mode do. -/
def freeWhere (f : VoiceId → Bool) (e : Engine) : Engine := freeIf f (freeIf f (freeIf f e .v1) .v2) .v3

/-- The policy state of a voice after `freeWhere f`. -/
def freedWhere (f : VoiceId → Bool) (v : VoiceId) (p : PolicyVoice) : PolicyVoice :=
  if f v then { p with vkey := none, actrl := p.actrl &&& 0xFE#8 } else p

theorem freeIf_of_false {f : VoiceId → Bool} {v : VoiceId} (h : f v = false) (e : Engine) : freeIf f e v = e :=
  if_neg (by rw [h]; exact Bool.false_ne_true)

theorem VoiceManager.setVoice_voice (m : VoiceManager) (v : VoiceId) : m.setVoice v (m.voice v) = m := by
  cases v <;> rfl

theorem freeIf_vm (f : VoiceId → Bool) (e : Engine) (v : VoiceId) :
    (freeIf f e v).vm = e.vm.setVoice v (freedWhere f v (e.vm.voice v)) := by
  unfold freeIf freedWhere
  split
  · exact freeVoice_vm e v
  · exact (e.vm.setVoice_voice v).symm

theorem freeIf_voice_ne (f : VoiceId → Bool) (e : Engine) {u v : VoiceId} (h : u ≠ v) :
    (freeIf f e v).vm.voice u = e.vm.voice u := by
  rw [freeIf_vm, VoiceManager.voice_setVoice, if_neg h]

theorem freeIf_modulation (f : VoiceId → Bool) (e : Engine) (v : VoiceId) : (freeIf f e v).modulation = e.modulation := by
  unfold freeIf
  split
  · exact freeVoice_modulation e v
  · rfl

theorem freeIf_audio (f : VoiceId → Bool) (e : Engine) (v : VoiceId) : (freeIf f e v).audio =
    if f v = true ∧ (e.vm.voice v).actrl[0] = true then
      e.audio.setReg (.voice v .ctrl) ((e.vm.voice v).actrl &&& 0xFE#8)
    else e.audio := by
  unfold freeIf
  by_cases hf : f v = true
  · rw [if_pos hf, freeVoice_audio]
    simp only [hf, true_and]
    rfl
  · rw [if_neg hf, if_neg fun h => hf h.1]

theorem freeIf_audio_regs (f : VoiceId → Bool) (e : Engine) (v : VoiceId) {i : ℕ} (hi : i < 32) :
    (freeIf f e v).audio.regs[i] =
      if (Reg.voice v .ctrl).addr = i ∧ f v = true ∧ (e.vm.voice v).actrl[0] = true then (e.vm.voice v).actrl &&& 0xFE#8
      else e.audio.regs[i] := by
  rw [freeIf_audio]
  by_cases hf : f v = true ∧ (e.vm.voice v).actrl[0] = true
  · simp only [hf, and_self, if_true, and_true, Chip.setReg_regs, Vector.getElem_set]
  · rw [if_neg hf, if_neg fun h => hf h.2]

theorem freeWhere_vm (f : VoiceId → Bool) (e : Engine) :
    (freeWhere f e).vm = { e.vm with voices := e.vm.voices.mapVoice (freedWhere f) } := by
  simp only [freeWhere, freeIf_vm]
  rfl

theorem freeWhere_modulation (f : VoiceId → Bool) (e : Engine) : (freeWhere f e).modulation = e.modulation := by
  simp only [freeWhere, freeIf_modulation]

/-- Freeing changes nothing of the audio chip but its registers. -/
theorem freeWhere_audio (f : VoiceId → Bool) (e : Engine) :
    (freeWhere f e).audio = { e.audio with regs := (freeWhere f e).audio.regs } := by
  have hstep (e : Engine) (v : VoiceId) : ∃ regs, (freeIf f e v).audio = { e.audio with regs := regs } := by
    rw [freeIf_audio]
    split
    · exact ⟨_, rfl⟩
    · exact ⟨_, rfl⟩
  obtain ⟨r1, h1⟩ := hstep e .v1
  obtain ⟨r2, h2⟩ := hstep (freeIf f e .v1) .v2
  obtain ⟨r3, h3⟩ := hstep (freeIf f (freeIf f e .v1) .v2) .v3
  rw [freeWhere, h3, h2, h1]

/-- A freed voice whose gate was open has its control register written. -/
theorem freeWhere_ctrl (f : VoiceId → Bool) (e : Engine) (v : VoiceId) :
    (freeWhere f e).audio.regs[(Reg.voice v .ctrl).addr]'(Reg.addr_lt _) =
      if f v = true ∧ (e.vm.voice v).actrl[0] = true then (e.vm.voice v).actrl &&& 0xFE#8
      else e.audio.regs[(Reg.voice v .ctrl).addr]'(Reg.addr_lt _) := by
  cases v <;> simp [freeWhere, freeIf_audio_regs, freeIf_voice_ne, Reg.addr, voiceBase, VReg.offset]

/-- No other register is written. -/
theorem freeWhere_regs_ne (f : VoiceId → Bool) (e : Engine) {i : ℕ} (hi : i < 32)
    (hne : ∀ v, (Reg.voice v .ctrl).addr ≠ i) : (freeWhere f e).audio.regs[i] = e.audio.regs[i] := by
  simp only [freeWhere, freeIf_audio_regs, hne, false_and, if_false]

theorem ctrlAddr_ne_of_ne {r : Fin 32} (h1 : r ≠ 0x04) (h2 : r ≠ 0x0B) (h3 : r ≠ 0x12) (v : VoiceId) :
    (Reg.voice v .ctrl).addr ≠ r.val := by
  cases v with
  | v1 => exact fun h => h1 (Fin.ext h.symm)
  | v2 => exact fun h => h2 (Fin.ext h.symm)
  | v3 => exact fun h => h3 (Fin.ext h.symm)

/-! ### A change of the key mode (R283) -/

theorem freeAll_eq_freeWhere (e : Engine) : freeAll e = freeWhere (fun _ => true) e := rfl

/-- The mode of a controller value is the one whose code is the value, saturated at 4 (R283). -/
theorem keyModeOfVal_eq {val : BitVec 14} {mode : KeyMode} (h : mode.code.toNat = min val.toNat 4) :
    keyModeOfVal val = mode := by
  unfold keyModeOfVal
  cases mode <;> simp only [KeyMode.code, BitVec.toNat_ofNat] at h <;> split <;> grind

theorem keyModeController {s : State} {a m : Chip} (hp : PairOf s a m) {val : BitVec 14} {mode : KeyMode}
    (hmode : mode.code.toNat = min val.toNat 4) {vm' : VoiceManager} {a' m' : Chip}
    (h : ctrlKeyMode { vm := s.vm, audio := a, modulation := m } mode = { vm := vm', audio := a', modulation := m' }) :
    exec (.ctrlChange 60#7 val) s = .next (s.eventDone vm' a' m') := by
  refine ctrlChange_of_effect hp (by decide) ?_
  rw [ctrlEffect_manager _ (by decide), ← h, ← keyModeOfVal_eq hmode]
  rfl

/-- Settles O45: a change of the mode frees all three voices and clears the tracking. -/
theorem keyModeChangeFreesEveryVoice : Obligations.KeyModeChangeFreesEveryVoice := by
  intro s a m val mode hp hmode
  refine ⟨fun hsame => keyModeController hp hmode (if_pos hsame), fun hnew => ?_⟩
  let e : Engine := { vm := s.vm, audio := a, modulation := m }
  refine ⟨{ clearTracking (freeAll e).vm with keymode := mode }, (freeAll e).audio, keyModeController hp hmode ?_, ?_, ?_,
    fun x hx => ?_, fun r h1 h2 h3 => ?_⟩
  · rw [ctrlKeyMode, if_neg hnew]
    exact engine_eq_mk rfl rfl (freeWhere_modulation (fun _ => true) e)
  · rw [freeAll_eq_freeWhere, freeWhere_vm]
    rfl
  · exact freeWhere_audio (fun _ => true) e
  · obtain ⟨v, rfl⟩ := ctrlAddr_of_mem hx
    refine (freeWhere_ctrl (fun _ => true) e v).trans ?_
    simp only [true_and]
    rfl
  · exact freeWhere_regs_ne (fun _ => true) e r.isLt (ctrlAddr_ne_of_ne h1 h2 h3)

/-! ### A press (R273 to R277) -/

theorem isFree_eq_decide (m : VoiceManager) (v : VoiceId) : isFree m v = decide ((m.voice v).vkey = none) := by
  rw [isFree]
  cases (m.voice v).vkey <;> rfl

/-- The first free voice is the first in order that has no key. -/
theorem firstFree_eq_head? (m : VoiceManager) :
    firstFree m = ([VoiceId.v1, .v2, .v3].filter fun v => decide ((m.voice v).vkey = none)).head? := by
  simp only [List.head?_filter, ← isFree_eq_decide, firstFree, List.find?]
  cases isFree m .v1 <;> cases isFree m .v2 <;> cases isFree m .v3 <;> rfl

theorem firstFree_eq_some {m : VoiceManager} {v : VoiceId} (hv : (m.voice v).vkey = none)
    (hbelow : ∀ u, voiceIndex u < voiceIndex v → (m.voice u).vkey ≠ none) : firstFree m = some v := by
  cases v with
  | v1 => simp [firstFree, isFree_eq_decide, hv]
  | v2 => simp [firstFree, isFree_eq_decide, hv, hbelow .v1 (by decide)]
  | v3 => simp [firstFree, isFree_eq_decide, hv, hbelow .v1 (by decide), hbelow .v2 (by decide)]

theorem firstFree_eq_none {m : VoiceManager} (h : ∀ v, (m.voice v).vkey ≠ none) : firstFree m = none := by
  simp [firstFree, isFree_eq_decide, h]

theorem keyNumber_of_vkey {m : VoiceManager} {v : VoiceId} {k : Key} (h : (m.voice v).vkey = some k) :
    keyNumber m v = k.toNat := by
  rw [keyNumber, h]

/-- Three different voices are the three voices in some order. -/
theorem voices_perm {u v w : VoiceId} (huv : u ≠ v) (hvw : v ≠ w) (huw : u ≠ w) : (u, v, w) ∈
    [(VoiceId.v1, VoiceId.v2, VoiceId.v3), (.v1, .v3, .v2), (.v2, .v1, .v3), (.v2, .v3, .v1), (.v3, .v1, .v2), (.v3, .v2, .v1)] := by
  cases u <;> cases v <;> cases w <;> simp_all

/-- The median voice is the one whose key lies strictly between the others' (R274). -/
theorem medianVoice_eq {m : VoiceManager} {u v w : VoiceId} (huv : u ≠ v) (hvw : v ≠ w) (huw : u ≠ w)
    (hlo : keyNumber m u < keyNumber m v) (hhi : keyNumber m v < keyNumber m w) : medianVoice m = v := by
  have hperm := voices_perm huv hvw huw
  simp only [List.mem_cons, Prod.mk.injEq, List.not_mem_nil, or_false] at hperm
  simp only [medianVoice, between, Bool.or_eq_true, Bool.and_eq_true, decide_eq_true_eq]
  obtain ⟨rfl, rfl, rfl⟩ | ⟨rfl, rfl, rfl⟩ | ⟨rfl, rfl, rfl⟩ | ⟨rfl, rfl, rfl⟩ | ⟨rfl, rfl, rfl⟩ | ⟨rfl, rfl, rfl⟩ := hperm
  · rw [if_neg (by omega), if_pos (by omega)]
  · rw [if_neg (by omega), if_neg (by omega)]
  · rw [if_pos (by omega)]
  · rw [if_neg (by omega), if_neg (by omega)]
  · rw [if_pos (by omega)]
  · rw [if_neg (by omega), if_pos (by omega)]

/-- In Poly3 and Poly4 a key of the polyphonic zone goes to voice 1 or 3, another key to no voice (R276, R277). -/
theorem press_of_split (c : Cfg) {e : Engine} (hm : e.vm.keymode = .poly3 ∨ e.vm.keymode = .poly4) (k : Key) :
    press c e k = if polyZone e.vm k then assignVoice c e (splitVoice e.vm k) k else e := by
  obtain h | h := hm <;> rw [press, h]

theorem polyZone_eq_true_iff {m : VoiceManager} (hm : m.keymode = .poly3 ∨ m.keymode = .poly4) (k : Key) :
    polyZone m k = true ↔
      (m.keymode = .poly3 ∧ m.split.toNat ≤ k.toNat ∨ m.keymode = .poly4 ∧ k.toNat < m.split.toNat) := by
  obtain h | h := hm <;> simp [polyZone, h]

theorem keyDistance_eq_abs {m : VoiceManager} {v : VoiceId} {j : Key} (h : (m.voice v).vkey = some j) (k : Key) :
    (keyDistance m v k : ℤ) = |(j.toNat : ℤ) - k.toNat| := by
  rw [keyDistance, keyNumber_of_vkey h]
  grind

/-- The nearer of two keys, on integers (R276). -/
theorem splitVoice_of_taken {m : VoiceManager} {k1 k3 : Key} (h1 : (m.voice .v1).vkey = some k1)
    (h3 : (m.voice .v3).vkey = some k3) (k : Key) : splitVoice m k =
      if |(k1.toNat : ℤ) - k.toNat| ≤ |(k3.toNat : ℤ) - k.toNat| then .v1 else .v3 := by
  simp only [splitVoice, isFree_eq_decide, h1, h3, reduceCtorEq, decide_false, Bool.false_eq_true, if_false,
    ← keyDistance_eq_abs h1 k, ← keyDistance_eq_abs h3 k, Nat.cast_le]

/-! ### A release (R273 to R277) -/

/-- The voices the release of `k` frees, by key mode. -/
def releases (m : VoiceManager) (k : Key) (v : VoiceId) : Bool :=
  match m.keymode with
  | .mono => decide ((m.voice .v1).vkey = some k)
  | .poly1 => decide ((m.voice v).vkey = some k)
  | .poly2 => decide ((m.voice v).vkey = some k)
  | .poly3 => decide (m.split.toNat ≤ k.toNat) && decide (v ≠ .v2) && decide ((m.voice v).vkey = some k)
  | .poly4 => decide (k.toNat < m.split.toNat) && decide (v ≠ .v2) && decide ((m.voice v).vkey = some k)

theorem freeIfHolds_eq_freeIf {f : VoiceId → Bool} {e : Engine} {k : Key} {v : VoiceId}
    (h : f v = decide ((e.vm.voice v).vkey = some k)) : freeIfHolds e k v = freeIf f e v := by
  simp only [freeIfHolds, freeIf, h, decide_eq_true_eq]

/-- Freeing one voice does not change which key another one holds, so the voices can be read before the release. -/
theorem freeIfHolds_all {f : VoiceId → Bool} {e : Engine} {k : Key}
    (h : ∀ v, f v = decide ((e.vm.voice v).vkey = some k)) :
    freeIfHolds (freeIfHolds (freeIfHolds e k .v1) k .v2) k .v3 = freeWhere f e := by
  have h2 : f .v2 = decide (((freeIf f e .v1).vm.voice .v2).vkey = some k) := by
    rw [freeIf_voice_ne f e (by decide), h]
  have h3 : f .v3 = decide (((freeIf f (freeIf f e .v1) .v2).vm.voice .v3).vkey = some k) := by
    rw [freeIf_voice_ne f _ (by decide), freeIf_voice_ne f e (by decide), h]
  rw [freeIfHolds_eq_freeIf (h .v1), freeIfHolds_eq_freeIf h2, freeIfHolds_eq_freeIf h3, freeWhere]

/-- The same for the two voices of the polyphonic zone. -/
theorem freeIfHolds_outer {f : VoiceId → Bool} {e : Engine} {k : Key} (h1 : f .v1 = decide ((e.vm.voice .v1).vkey = some k))
    (h2 : f .v2 = false) (h3 : f .v3 = decide ((e.vm.voice .v3).vkey = some k)) :
    freeIfHolds (freeIfHolds e k .v1) k .v3 = freeWhere f e := by
  have h3' : f .v3 = decide (((freeIf f e .v1).vm.voice .v3).vkey = some k) := by
    rw [freeIf_voice_ne f e (by decide), h3]
  rw [freeIfHolds_eq_freeIf h1, freeIfHolds_eq_freeIf h3', freeWhere, freeIf_of_false h2]

theorem freeWhere_of_none {f : VoiceId → Bool} (h : ∀ v, f v = false) (e : Engine) : freeWhere f e = e := by
  simp only [freeWhere, freeIf_of_false (h _)]

theorem release_eq_freeWhere (e : Engine) (k : Key) : release e k = freeWhere (releases e.vm k) e := by
  cases hm : e.vm.keymode with
  | mono =>
    by_cases h : (e.vm.voice .v1).vkey = some k
    · have hall : releases e.vm k = fun _ => true := by funext v; simp [releases, hm, h]
      simp only [release, hm, if_pos h, freeAll_eq_freeWhere, hall]
    · have hnone (v : VoiceId) : releases e.vm k v = false := by simp [releases, hm, h]
      simp only [release, hm, if_neg h, freeWhere_of_none hnone]
  | poly1 =>
    simp only [release, hm]
    exact freeIfHolds_all fun v => by simp only [releases, hm]
  | poly2 =>
    simp only [release, hm]
    exact freeIfHolds_all fun v => by simp only [releases, hm]
  | poly3 =>
    by_cases h : e.vm.split.toNat ≤ k.toNat
    · simp only [release, hm, polyZone, h, decide_true, if_true]
      exact freeIfHolds_outer (by simp [releases, hm, h]) (by simp [releases, hm]) (by simp [releases, hm, h])
    · have hnone (v : VoiceId) : releases e.vm k v = false := by simp [releases, hm, h]
      simp only [release, hm, polyZone, h, decide_false, Bool.false_eq_true, if_false, freeWhere_of_none hnone]
  | poly4 =>
    by_cases h : k.toNat < e.vm.split.toNat
    · simp only [release, hm, polyZone, h, decide_true, if_true]
      exact freeIfHolds_outer (by simp [releases, hm, h]) (by simp [releases, hm]) (by simp [releases, hm, h])
    · have hnone (v : VoiceId) : releases e.vm k v = false := by simp [releases, hm, h]
      simp only [release, hm, polyZone, h, decide_false, Bool.false_eq_true, if_false, freeWhere_of_none hnone]

/-- Settles O52: a press by the voice its mode chooses, a release by the set of voices its mode frees. -/
theorem pressAndReleaseFollowTheKeyModePolicy : Obligations.PressAndReleaseFollowTheKeyModePolicy := by
  refine ⟨fun c e k => ⟨fun hm => ?_, fun v hm hv hbelow => ?_, fun u v w ku kv kw hm huv hvw huw hu hv hw hlo hhi => ?_,
    fun hout => ?_, fun hin => ?_⟩, fun e k => ?_⟩
  · rw [press, hm]
  · rw [press_of_poly c hm, polyVoice, firstFree_eq_some hv hbelow, Option.getD_some]
  · have hfull : firstFree e.vm = none := firstFree_eq_none fun x => by
      have := voices_perm huv hvw huw
      cases x <;> grind
    have hmedian : medianVoice e.vm = v := medianVoice_eq huv hvw huw
      (by rwa [keyNumber_of_vkey hu, keyNumber_of_vkey hv]) (by rwa [keyNumber_of_vkey hv, keyNumber_of_vkey hw])
    rw [press_of_poly c hm, polyVoice, hfull, Option.getD_none, hmedian]
  · have hm : e.vm.keymode = .poly3 ∨ e.vm.keymode = .poly4 := hout.imp And.left And.left
    rw [press_of_split c hm, if_neg]
    rw [polyZone_eq_true_iff hm]
    grind
  · have hm : e.vm.keymode = .poly3 ∨ e.vm.keymode = .poly4 := hin.imp And.left And.left
    rw [press_of_split c hm, if_pos ((polyZone_eq_true_iff hm k).2 hin)]
    refine ⟨fun h1 => ?_, fun h1 h3 => ?_, fun k1 k3 h1 h3 => ?_⟩
    · simp [splitVoice, isFree_eq_decide, h1]
    · simp [splitVoice, isFree_eq_decide, h1, h3]
    · rw [splitVoice_of_taken h1 h3]
  · intro e' plays freed policy
    have he' : e' = freeWhere freed e := release_eq_freeWhere e k
    refine ⟨?_, fun x hx => ?_, fun r h1 h2 h3 => ?_⟩
    · rw [he']
      exact engine_eq_mk (freeWhere_vm _ e) (freeWhere_audio _ e) (freeWhere_modulation _ e)
    · obtain ⟨v, rfl⟩ := ctrlAddr_of_mem hx
      rw [he']
      exact freeWhere_ctrl _ e v
    · rw [he']
      exact freeWhere_regs_ne _ e r.isLt (ctrlAddr_ne_of_ne h1 h2 h3)

end Sys2Proof.Machine
end

section
/-! PROOFS. The key scan (R270, R278, R279): which keys a pass handles can be read before the pass, the re-scan is a zip of
the free voices with the waiting keys, and three keys down fill the three voices. -/

namespace Sys2Proof.Machine

open Sys2Proof

/-! ### Folds over the keys -/

theorem mem_allKeys (k : Key) : k ∈ allKeys :=
  List.mem_map.2 ⟨k.toNat, List.mem_range.2 k.isLt, BitVec.eq_of_toNat_eq (by simp)⟩

theorem nodup_allKeys : allKeys.Nodup := by
  refine List.Nodup.map_on (fun i hi j hj h => ?_) List.nodup_range
  rw [List.mem_range] at hi hj
  simpa [Nat.mod_eq_of_lt hi, Nat.mod_eq_of_lt hj] using congrArg BitVec.toNat h

/-- Where the work for one key does not change whether another key is due, the keys that are due can be read before the
fold. -/
theorem foldl_of_guard {α β : Type} {f : β → α → β} {due : β → α → Bool} (h : ∀ b j k, j ≠ k → due (f b j) k = due b k)
    {l : List α} (hl : l.Nodup) (b : β) :
    l.foldl (fun b k => if due b k then f b k else b) b = (l.filter (due b)).foldl f b := by
  induction l generalizing b with
  | nil => rfl
  | cons a l ih =>
    obtain ⟨hnot, hl⟩ := List.nodup_cons.1 hl
    by_cases ha : due b a = true
    · have hrest : l.filter (due (f b a)) = l.filter (due b) :=
        List.filter_congr fun k hk => h b a k fun hc => hnot (hc ▸ hk)
      rw [List.foldl_cons, if_pos ha, ih hl, hrest, List.filter_cons_of_pos ha, List.foldl_cons]
    · rw [List.foldl_cons, if_neg ha, ih hl, List.filter_cons_of_neg ha]

/-- What is tracked after a fold whose work for a key sets the tracking of that key alone. -/
theorem foldl_isKnown {f : Engine → Key → Engine} {b : Bool}
    (hf : ∀ e j k, (f e j).vm.isKnown k = if k = j then b else e.vm.isKnown k) (l : List Key) (e : Engine) (k : Key) :
    (l.foldl f e).vm.isKnown k = if k ∈ l then b else e.vm.isKnown k := by
  induction l generalizing e with
  | nil => simp
  | cons j l ih =>
    rw [List.foldl_cons, ih, hf]
    by_cases hl : k ∈ l <;> by_cases hj : k = j <;> simp [hl, hj]

/-! ### What a press, a release and a scan leave alone -/

theorem isDown_of_keymap_eq {m m' : VoiceManager} (h : m'.keymap = m.keymap) (k : Key) : m'.isDown k = m.isDown k := by
  simp only [VoiceManager.isDown, h]

@[simp] theorem freeVoice_keymap (e : Engine) (v : VoiceId) : (freeVoice e v).vm.keymap = e.vm.keymap := by
  rw [freeVoice_vm]; rfl

@[simp] theorem assignVoice_keymap (c : Cfg) (e : Engine) (v : VoiceId) (k : Key) :
    (assignVoice c e v k).vm.keymap = e.vm.keymap := by
  rw [assignVoice_vm]; rfl

@[simp] theorem release_keymap (e : Engine) (k : Key) : (release e k).vm.keymap = e.vm.keymap :=
  release_induction (P := fun e' => e'.vm.keymap = e.vm.keymap) (fun _ _ h => by rw [freeVoice_keymap]; exact h) k rfl

@[simp] theorem press_keymap (c : Cfg) (e : Engine) (k : Key) : (press c e k).vm.keymap = e.vm.keymap :=
  press_induction (P := fun e' => e'.vm.keymap = e.vm.keymap) (fun _ _ _ h => by rw [assignVoice_keymap]; exact h) k rfl

@[simp] theorem scan_keymap (c : Cfg) (e : Engine) : (scan c e).vm.keymap = e.vm.keymap :=
  scan_induction (P := fun e' => e'.vm.keymap = e.vm.keymap) (fun _ _ _ h => h)
    (fun _ _ h => by rw [freeVoice_keymap]; exact h) (fun _ _ _ h => by rw [assignVoice_keymap]; exact h) rfl

@[simp] theorem press_isKnown (c : Cfg) (e : Engine) (k j : Key) : (press c e k).vm.isKnown j = e.vm.isKnown j :=
  press_induction (P := fun e' => e'.vm.isKnown j = e.vm.isKnown j) (fun _ _ _ h => by rw [assignVoice_isKnown]; exact h) k
    rfl

@[simp] theorem press_keymode (c : Cfg) (e : Engine) (k : Key) : (press c e k).vm.keymode = e.vm.keymode :=
  press_induction (P := fun e' => e'.vm.keymode = e.vm.keymode) (fun _ _ _ h => by rw [assignVoice_keymode]; exact h) k rfl

@[simp] theorem rescan_isKnown (c : Cfg) (e : Engine) (k : Key) : (rescan c e).vm.isKnown k = e.vm.isKnown k := by
  refine foldl_induction (P := fun e' => e'.vm.isKnown k = e.vm.isKnown k) (fun e' j h => ?_) allKeys rfl
  unfold rescanKey
  split
  · split
    · rw [assignVoice_isKnown]; exact h
    · exact h
  · exact h

/-! ### The three passes (R270) -/

/-- A key that is released: no longer tracked, then `Release`. -/
def trackRelease (e : Engine) (k : Key) : Engine := release (e.setKnown k false) k

/-- A key that is pressed: tracked, then `Press`. -/
def trackPress (c : Cfg) (e : Engine) (k : Key) : Engine := press c (e.setKnown k true) k

theorem trackRelease_isKnown (e : Engine) (j k : Key) :
    (trackRelease e j).vm.isKnown k = if k = j then false else e.vm.isKnown k := by
  rw [trackRelease, release_isKnown, Engine.setKnown_vm, VoiceManager.isKnown_setKnown]

theorem trackRelease_isDown (e : Engine) (j k : Key) : (trackRelease e j).vm.isDown k = e.vm.isDown k :=
  isDown_of_keymap_eq (release_keymap ..) k

theorem trackPress_isKnown (c : Cfg) (e : Engine) (j k : Key) :
    (trackPress c e j).vm.isKnown k = if k = j then true else e.vm.isKnown k := by
  rw [trackPress, press_isKnown, Engine.setKnown_vm, VoiceManager.isKnown_setKnown]

theorem trackPress_isDown (c : Cfg) (e : Engine) (j k : Key) : (trackPress c e j).vm.isDown k = e.vm.isDown k :=
  isDown_of_keymap_eq (press_keymap ..) k

/-- The released keys, read before pass 1. -/
def releasedKeys (m : VoiceManager) : List Key := allKeys.filter (wasReleased m)

/-- The pressed keys, read before pass 2. -/
def pressedKeys (m : VoiceManager) : List Key := allKeys.filter (wasPressed m)

/-- The engine after pass 1. -/
def afterReleases (e : Engine) : Engine := (releasedKeys e.vm).foldl trackRelease e

/-- The engine after pass 2. -/
def afterPresses (c : Cfg) (e : Engine) : Engine := (pressedKeys e.vm).foldl (trackPress c) e

theorem foldl_scanRelease (e : Engine) : allKeys.foldl scanRelease e = afterReleases e := by
  refine foldl_of_guard (f := trackRelease) (due := fun e k => wasReleased e.vm k) (fun e j k hjk => ?_) nodup_allKeys e
  rw [wasReleased, wasReleased, trackRelease_isKnown, trackRelease_isDown, if_neg hjk.symm]

theorem foldl_scanPress (c : Cfg) (e : Engine) : allKeys.foldl (scanPress c) e = afterPresses c e := by
  refine foldl_of_guard (f := trackPress c) (due := fun e k => wasPressed e.vm k) (fun e j k hjk => ?_) nodup_allKeys e
  rw [wasPressed, wasPressed, trackPress_isKnown, trackPress_isDown, if_neg hjk.symm]

theorem afterReleases_isDown (e : Engine) (k : Key) : (afterReleases e).vm.isDown k = e.vm.isDown k :=
  foldl_induction (P := fun e' => e'.vm.isDown k = e.vm.isDown k) (fun e' j h => by rw [trackRelease_isDown, h]) _ rfl

theorem mem_releasedKeys {m : VoiceManager} {k : Key} : k ∈ releasedKeys m ↔ m.isKnown k = true ∧ m.isDown k = false := by
  simp [releasedKeys, wasReleased, mem_allKeys]

theorem mem_pressedKeys {m : VoiceManager} {k : Key} : k ∈ pressedKeys m ↔ m.isDown k = true ∧ m.isKnown k = false := by
  simp [pressedKeys, wasPressed, mem_allKeys]

theorem afterReleases_isKnown (e : Engine) (k : Key) :
    (afterReleases e).vm.isKnown k = (e.vm.isKnown k && e.vm.isDown k) := by
  rw [afterReleases, foldl_isKnown trackRelease_isKnown]
  simp only [mem_releasedKeys]
  cases e.vm.isKnown k <;> cases e.vm.isDown k <;> rfl

/-- Pass 1 does not change which keys pass 2 handles: it untracks only keys that are up. -/
theorem pressedKeys_afterReleases (e : Engine) : pressedKeys (afterReleases e).vm = pressedKeys e.vm := by
  refine List.filter_congr fun k _ => ?_
  rw [wasPressed, wasPressed, afterReleases_isDown, afterReleases_isKnown]
  cases e.vm.isKnown k <;> cases e.vm.isDown k <;> rfl

theorem afterPresses_isKnown (c : Cfg) (e : Engine) (k : Key) :
    (afterPresses c e).vm.isKnown k = (e.vm.isKnown k || e.vm.isDown k) := by
  rw [afterPresses, foldl_isKnown (trackPress_isKnown c)]
  simp only [mem_pressedKeys]
  cases e.vm.isKnown k <;> cases e.vm.isDown k <;> rfl

theorem afterReleases_keymode (e : Engine) : (afterReleases e).vm.keymode = e.vm.keymode :=
  foldl_induction (P := fun e' => e'.vm.keymode = e.vm.keymode)
    (fun e' j h => by rw [trackRelease, release_keymode]; exact h) _ rfl

theorem afterPresses_keymode (c : Cfg) (e : Engine) : (afterPresses c e).vm.keymode = e.vm.keymode :=
  foldl_induction (P := fun e' => e'.vm.keymode = e.vm.keymode)
    (fun e' j h => by rw [trackPress, press_keymode]; exact h) _ rfl

theorem anyReleased_iff (m : VoiceManager) : anyReleased m = true ↔ releasedKeys m ≠ [] := by
  simp [anyReleased, releasedKeys]

theorem hasRescan_iff (m : KeyMode) : hasRescan m = true ↔ m = .poly1 ∨ m = .poly2 := by
  simp [hasRescan]

/-- The scan as its passes. -/
theorem scan_eq (c : Cfg) (e : Engine) : scan c e =
    if releasedKeys e.vm ≠ [] ∧ (e.vm.keymode = .poly1 ∨ e.vm.keymode = .poly2) then
      rescan c (afterPresses c (afterReleases e))
    else afterPresses c (afterReleases e) := by
  simp only [scan, foldl_scanRelease, foldl_scanPress, Bool.and_eq_true, anyReleased_iff, hasRescan_iff,
    afterPresses_keymode, afterReleases_keymode]

/-- After a scan exactly the keys that are down are tracked. -/
theorem scan_isKnown (c : Cfg) (e : Engine) (k : Key) : (scan c e).vm.isKnown k = e.vm.isDown k := by
  have h : (afterPresses c (afterReleases e)).vm.isKnown k = e.vm.isDown k := by
    rw [afterPresses_isKnown, afterReleases_isKnown, afterReleases_isDown]
    cases e.vm.isKnown k <;> cases e.vm.isDown k <;> rfl
  rw [scan_eq]
  split
  · rw [rescan_isKnown, h]
  · exact h

/-! ### The free voices and the waiting keys (R278) -/

/-- The voices with no key, in order. -/
def freeVoices (m : VoiceManager) : List VoiceId := [.v1, .v2, .v3].filter fun v => decide ((m.voice v).vkey = none)

/-- `k` is tracked and no voice plays it. -/
def isWaiting (m : VoiceManager) (k : Key) : Bool :=
  m.isKnown k && [VoiceId.v1, .v2, .v3].all fun v => decide ((m.voice v).vkey ≠ some k)

theorem mem_voices (v : VoiceId) : v ∈ [VoiceId.v1, .v2, .v3] := by
  cases v <;> decide

theorem nodup_freeVoices (m : VoiceManager) : (freeVoices m).Nodup :=
  List.Nodup.filter _ (by decide)

theorem mem_freeVoices {m : VoiceManager} {v : VoiceId} : v ∈ freeVoices m ↔ (m.voice v).vkey = none := by
  rw [freeVoices, List.mem_filter, decide_eq_true_eq]
  exact and_iff_right (mem_voices v)

theorem isWaiting_iff {m : VoiceManager} {k : Key} :
    isWaiting m k = true ↔ m.isKnown k = true ∧ ∀ v, (m.voice v).vkey ≠ some k := by
  rw [isWaiting, Bool.and_eq_true, List.all_eq_true]
  simp only [decide_eq_true_eq]
  exact and_congr_right' ⟨fun h v => h v (mem_voices v), fun h v _ => h v⟩

/-- The re-scan's own test of a key (R278). -/
theorem isKnown_and_not_isAssigned (m : VoiceManager) (k : Key) : (m.isKnown k && !isAssigned m k) = isWaiting m k := by
  rw [Bool.eq_iff_iff]
  simp [isAssigned, isWaiting, and_assoc]

/-- An assignment takes the voice from the free ones. -/
theorem freeVoices_assignVoice (c : Cfg) (e : Engine) (v : VoiceId) (k : Key) :
    freeVoices (assignVoice c e v k).vm = (freeVoices e.vm).filter fun u => decide (u ≠ v) := by
  rw [freeVoices, freeVoices, List.filter_filter]
  refine List.filter_congr fun u _ => ?_
  rw [assignVoice_vkey]
  by_cases hu : u = v <;> simp [hu]

/-- The first free voice assigned, the others stay free. -/
theorem freeVoices_assignVoice_head (c : Cfg) {e : Engine} {v : VoiceId} {rest : List VoiceId}
    (h : freeVoices e.vm = v :: rest) (k : Key) : freeVoices (assignVoice c e v k).vm = rest := by
  have hnot : v ∉ rest := (List.nodup_cons.1 (h ▸ nodup_freeVoices e.vm)).1
  rw [freeVoices_assignVoice, h, List.filter_cons_of_neg (by simp)]
  exact List.filter_eq_self.2 fun u hu => decide_eq_true fun hc => hnot (hc ▸ hu)

/-- A free voice given one key leaves the other keys waiting as they were. -/
theorem isWaiting_assignVoice (c : Cfg) {e : Engine} {v : VoiceId} (hv : (e.vm.voice v).vkey = none) {j k : Key}
    (hjk : j ≠ k) : isWaiting (assignVoice c e v j).vm k = isWaiting e.vm k := by
  rw [Bool.eq_iff_iff, isWaiting_iff, isWaiting_iff, assignVoice_isKnown]
  refine and_congr_right' (forall_congr' fun u => ?_)
  rw [assignVoice_vkey]
  split
  · next hu => subst hu; simp [hv, hjk]
  · rfl

theorem rescanKey_eq (c : Cfg) (e : Engine) (k : Key) : rescanKey c e k =
    if isWaiting e.vm k then (match (freeVoices e.vm).head? with | some v => assignVoice c e v k | none => e) else e := by
  rw [rescanKey, isKnown_and_not_isAssigned, firstFree_eq_head?]
  rfl

/-- The waiting keys go to the free voices, one to one and in order, until keys or voices run out (R278). -/
theorem foldl_rescanKey (c : Cfg) {l : List Key} (hl : l.Nodup) (e : Engine) : l.foldl (rescanKey c) e =
    ((freeVoices e.vm).zip (l.filter (isWaiting e.vm))).foldl (fun e x => assignVoice c e x.1 x.2) e := by
  induction l generalizing e with
  | nil => simp
  | cons a l ih =>
    obtain ⟨hnot, hl⟩ := List.nodup_cons.1 hl
    rw [List.foldl_cons, rescanKey_eq]
    by_cases ha : isWaiting e.vm a = true
    · rw [if_pos ha, List.filter_cons_of_pos ha]
      cases hfree : freeVoices e.vm with
      | nil => simp [ih hl, hfree]
      | cons v rest =>
        have hv : (e.vm.voice v).vkey = none := mem_freeVoices.1 (hfree ▸ List.mem_cons_self)
        have hwait : l.filter (isWaiting (assignVoice c e v a).vm) = l.filter (isWaiting e.vm) :=
          List.filter_congr fun k hk => isWaiting_assignVoice c hv fun hc => hnot (hc ▸ hk)
        simp only [List.head?_cons]
        rw [ih hl, freeVoices_assignVoice_head c hfree, hwait, List.zip_cons_cons, List.foldl_cons]
    · rw [if_neg ha, List.filter_cons_of_neg ha, ih hl]

/-! ### Three keys down fill three voices (R279) -/

/-- In Poly1 and Poly2 a press takes the first free voice; with none free, none becomes free. -/
theorem freeVoices_press (c : Cfg) {e : Engine} (hm : e.vm.keymode = .poly1 ∨ e.vm.keymode = .poly2) (k : Key) :
    freeVoices (press c e k).vm = (freeVoices e.vm).tail := by
  have hhead : firstFree e.vm = (freeVoices e.vm).head? := firstFree_eq_head? e.vm
  rw [press_of_poly c hm, polyVoice, hhead]
  cases hfree : freeVoices e.vm with
  | nil => rw [freeVoices_assignVoice, hfree]; rfl
  | cons v rest => exact freeVoices_assignVoice_head c hfree k

theorem freeVoices_foldl_trackPress (c : Cfg) (l : List Key) {e : Engine}
    (hm : e.vm.keymode = .poly1 ∨ e.vm.keymode = .poly2) :
    freeVoices (l.foldl (trackPress c) e).vm = (freeVoices e.vm).drop l.length := by
  induction l generalizing e with
  | nil => rfl
  | cons k l ih =>
    have hpress : freeVoices (trackPress c e k).vm = (freeVoices e.vm).tail :=
      freeVoices_press c (e := e.setKnown k true) hm k
    rw [List.foldl_cons, ih (by rw [trackPress, press_keymode]; exact hm), hpress, List.drop_tail, List.length_cons]

/-- With three keys pressed and no voice in use, no voice is left free. -/
theorem freeVoices_afterPresses (c : Cfg) {e : Engine} (hm : e.vm.keymode = .poly1 ∨ e.vm.keymode = .poly2)
    (h : 3 ≤ (pressedKeys e.vm).length) : freeVoices (afterPresses c e).vm = [] := by
  have hlen : (freeVoices e.vm).length ≤ 3 := List.length_filter_le ..
  rw [afterPresses, freeVoices_foldl_trackPress c _ hm]
  exact List.drop_eq_nil_of_le (by omega)

/-- Settles O53: the passes as folds over the keys that are due, the re-scan as the zip, and the voices filled by count. -/
theorem scanTracksAndAssignsTheKeys : Obligations.ScanTracksAndAssignsTheKeys := by
  refine ⟨fun c e => ?_, fun c e => foldl_rescanKey c nodup_allKeys e, fun c e hm hknown hfree hthree => ?_⟩
  · intro track released pressed e1 e2
    have hpasses : afterPresses c (afterReleases e) = e2 := by
      rw [afterPresses, pressedKeys_afterReleases]
      rfl
    refine ⟨?_, scan_keymap c e, scan_isKnown c e⟩
    rw [scan_eq, hpasses]
    rfl
  · intro e'
    have hnone : releasedKeys e.vm = [] := by simp [releasedKeys, wasReleased, hknown]
    have hpressed : pressedKeys e.vm = allKeys.filter e.vm.isDown :=
      List.filter_congr fun k _ => by rw [wasPressed, hknown, Bool.not_false, Bool.and_true]
    have he' : e' = afterPresses c e := by
      show scan c e = _
      rw [scan_eq, if_neg fun h => h.1 hnone, afterReleases, hnone]
      rfl
    have hfull : freeVoices e'.vm = [] := he' ▸ freeVoices_afterPresses c hm (hpressed ▸ hthree)
    have hkey (v : VoiceId) : ∃ k, (e'.vm.voice v).vkey = some k := by
      refine Option.ne_none_iff_exists'.1 fun hv => ?_
      have := mem_freeVoices.2 hv
      rw [hfull] at this
      cases this
    have hnokey (v : VoiceId) (k : Key) : (e.vm.voice v).vkey ≠ some k := by
      rw [hfree v]; exact (Option.some_ne_none k).symm
    have htracked : PolyTracked e :=
      ⟨hm, fun v k hv => absurd hv (hnokey v k), fun v _ k hv => absurd hv (hnokey v k)⟩
    obtain ⟨-, hdown, hinj⟩ := htracked.scan c
    obtain ⟨k1, h1⟩ := hkey .v1
    obtain ⟨k2, h2⟩ := hkey .v2
    obtain ⟨k3, h3⟩ := hkey .v3
    have hne {v w : VoiceId} {j k : Key} (hvw : v ≠ w) (hj : (e'.vm.voice v).vkey = some j)
        (hk : (e'.vm.voice w).vkey = some k) : j ≠ k :=
      fun hc => hvw (hinj v w k (hc ▸ hj) hk)
    have hisDown {v : VoiceId} {k : Key} (hk : (e'.vm.voice v).vkey = some k) : e.vm.isDown k = true :=
      (scan_isKnown c e k).symm.trans (hdown v k hk)
    exact ⟨k1, k2, k3, h1, h2, h3, hne (by decide) h1 h2, hne (by decide) h2 h3, hne (by decide) h1 h3, hisDown h1,
      hisDown h2, hisDown h3⟩

end Sys2Proof.Machine
end

section
/-! PROOFS. The modulation routes (R301 to R308): the values clamped to their registers, and what the fourteen writes leave in
the audio chip. -/

namespace Sys2Proof.Machine

open Sys2Proof

/-! ### Reading a register after a write -/

theorem Reg.addr_injective {q r : Reg} (h : q.addr = r.addr) : q = r :=
  Option.some.inj (by rw [← regOfAddr_addr q, ← regOfAddr_addr r, h])

theorem Chip.reg_setReg_self (c : Chip) (r : Reg) (d : Byte) : (c.setReg r d).reg r = d :=
  Vector.getElem_set_self _

theorem Chip.regs_setReg_ne (c : Chip) {r : Reg} (d : Byte) {i : ℕ} (hi : i < 32) (h : r.addr ≠ i) :
    (c.setReg r d).regs[i] = c.regs[i] :=
  Vector.getElem_set_ne r.addr_lt hi h

theorem Chip.reg_setReg_ne (c : Chip) {q r : Reg} (d : Byte) (h : r ≠ q) : (c.setReg r d).reg q = c.reg q :=
  c.regs_setReg_ne d q.addr_lt fun hc => h (Reg.addr_injective hc)

/-! ### The clamped values (R304 to R306) -/

/-- A clamped integer fits its register, so nothing of it is lost. -/
theorem toNat_ofInt_clampInt {w : ℕ} (x : ℤ) {hi : ℕ} (h : hi < 2 ^ w) :
    ((BitVec.ofInt w (clampInt x 0 hi)).toNat : ℤ) = max 0 (min (hi : ℤ) x) := by
  have h' : (hi : ℤ) < 2 ^ w := by exact_mod_cast h
  obtain ⟨hlo, hhi⟩ := clampInt_bounds (v := x) (Int.natCast_nonneg hi)
  rw [BitVec.toNat_ofInt, Int.emod_eq_of_lt hlo (by push_cast; omega), Int.toNat_of_nonneg hlo,
    clampInt_eq_max_min _ (Int.natCast_nonneg hi)]

section Values
variable (m : VoiceManager) (lfo env : F32) (v : VoiceId)

theorem freqOut_toNat : ((freqOut m lfo env v).toNat : ℤ) =
    max 0 (min 65535 (f2i (fmul (m.voice v).fcur (freqFactor m lfo env v)))) :=
  toNat_ofInt_clampInt _ (hi := 65535) (by decide)

theorem pwOut_toNat : ((pwOut m lfo env v).toNat : ℤ) =
    max 0 (min 4095 ((m.voice v).pwBase.toNat + f2i (fmul (fmul m.depthPw (modPw m lfo env v)) f2048))) :=
  toNat_ofInt_clampInt _ (hi := 4095) (by decide)

theorem fcOut_toNat : ((fcOut m lfo env).toNat : ℤ) =
    max 0 (min 2047 (m.fcBase.toNat + f2i (fmul (fmul m.depthFc (modCutoff m lfo env)) f1024))) :=
  toNat_ofInt_clampInt _ (hi := 2047) (by decide)

end Values

/-! ### The writes of one voice (R307) -/

/-- The registers of a voice that the routes write. -/
def VReg.isRouted (r : VReg) : Bool := r.offset < 4

theorem setWidth_extractLsb'_of_le {w n m : ℕ} (x : BitVec w) (h : n ≤ m) (s : ℕ) :
    ((x.extractLsb' s n).setWidth m).extractLsb' 0 n = x.extractLsb' s n := by
  refine BitVec.eq_of_getLsbD_eq fun i hi => ?_
  simp [hi, show i < m by omega]

section VoiceOut
variable (m : VoiceManager) (lfo env : F32) (c : Chip)

/-- The four writes of a voice as stores. -/
theorem writeVoiceOut_eq (v : VoiceId) : writeVoiceOut m lfo env c v =
    (((c.setReg (.voice v .freqLo) ((freqOut m lfo env v).extractLsb' 0 8)).setReg (.voice v .freqHi)
      ((freqOut m lfo env v).extractLsb' 8 8)).setReg (.voice v .pwLo) ((pwOut m lfo env v).extractLsb' 0 8)).setReg
      (.voice v .pwHi) (((pwOut m lfo env v).extractLsb' 8 4).setWidth 8) := rfl

theorem writeVoiceOut_regs_ne (v : VoiceId) {i : ℕ} (hi : i < 32)
    (h : ∀ r : VReg, r.isRouted = true → (Reg.voice v r).addr ≠ i) :
    (writeVoiceOut m lfo env c v).regs[i] = c.regs[i] := by
  rw [writeVoiceOut_eq, Chip.regs_setReg_ne _ _ _ (h .pwHi rfl), Chip.regs_setReg_ne _ _ _ (h .pwLo rfl),
    Chip.regs_setReg_ne _ _ _ (h .freqHi rfl), Chip.regs_setReg_ne _ _ _ (h .freqLo rfl)]

theorem writeVoiceOut_reg_ne (v : VoiceId) {q : Reg} (h : ∀ r, q ≠ .voice v r) :
    (writeVoiceOut m lfo env c v).reg q = c.reg q :=
  writeVoiceOut_regs_ne m lfo env c v q.addr_lt fun r _ hc => h r (Reg.addr_injective hc).symm

theorem writeVoiceOut_freqLo (v : VoiceId) :
    (writeVoiceOut m lfo env c v).reg (.voice v .freqLo) = (freqOut m lfo env v).extractLsb' 0 8 := by
  rw [writeVoiceOut_eq, Chip.reg_setReg_ne _ _ (by simp), Chip.reg_setReg_ne _ _ (by simp), Chip.reg_setReg_ne _ _ (by simp),
    Chip.reg_setReg_self]

theorem writeVoiceOut_freqHi (v : VoiceId) :
    (writeVoiceOut m lfo env c v).reg (.voice v .freqHi) = (freqOut m lfo env v).extractLsb' 8 8 := by
  rw [writeVoiceOut_eq, Chip.reg_setReg_ne _ _ (by simp), Chip.reg_setReg_ne _ _ (by simp), Chip.reg_setReg_self]

theorem writeVoiceOut_pwLo (v : VoiceId) :
    (writeVoiceOut m lfo env c v).reg (.voice v .pwLo) = (pwOut m lfo env v).extractLsb' 0 8 := by
  rw [writeVoiceOut_eq, Chip.reg_setReg_ne _ _ (by simp), Chip.reg_setReg_self]

theorem writeVoiceOut_pwHi (v : VoiceId) :
    (writeVoiceOut m lfo env c v).reg (.voice v .pwHi) = ((pwOut m lfo env v).extractLsb' 8 4).setWidth 8 := by
  rw [writeVoiceOut_eq, Chip.reg_setReg_self]

/-- The two cutoff writes as stores. -/
theorem writeCutoffOut_eq : writeCutoffOut m lfo env c =
    (c.setReg .fcLo (((fcOut m lfo env).extractLsb' 0 3).setWidth 8)).setReg .fcHi ((fcOut m lfo env).extractLsb' 3 8) := rfl

theorem writeCutoffOut_regs_ne {i : ℕ} (hi : i < 32) (hlo : i ≠ 0x15) (hhi : i ≠ 0x16) :
    (writeCutoffOut m lfo env c).regs[i] = c.regs[i] := by
  rw [writeCutoffOut_eq, Chip.regs_setReg_ne _ _ _ (Ne.symm hhi), Chip.regs_setReg_ne _ _ _ (Ne.symm hlo)]

theorem writeCutoffOut_reg_voice (v : VoiceId) (r : VReg) :
    (writeCutoffOut m lfo env c).reg (.voice v r) = c.reg (.voice v r) := by
  rw [writeCutoffOut_eq, Chip.reg_setReg_ne _ _ (by simp), Chip.reg_setReg_ne _ _ (by simp)]

end VoiceOut

/-! ### The audio chip after `EvalRoutes` (R307) -/

section Routes
variable (e : Engine)

/-- The audio chip after the routes of the three voices, before the cutoff. -/
def voicesRouted (e : Engine) : Chip :=
  let w := writeVoiceOut e.vm (lfoSource e.modulation) (envSource e.modulation)
  w (w (w e.audio .v1) .v2) .v3

theorem evalRoutes_audio : (evalRoutes e).audio =
    writeCutoffOut e.vm (lfoSource e.modulation) (envSource e.modulation) (voicesRouted e) := rfl

/-- A register of a voice holds what the writes of that voice left in it. -/
theorem evalRoutes_reg_voice {v : VoiceId} {r : VReg} {x : Byte}
    (h : ∀ c, (writeVoiceOut e.vm (lfoSource e.modulation) (envSource e.modulation) c v).reg (.voice v r) = x) :
    (evalRoutes e).audio.reg (.voice v r) = x := by
  rw [evalRoutes_audio, writeCutoffOut_reg_voice, voicesRouted]
  cases v with
  | v1 =>
    rw [writeVoiceOut_reg_ne _ _ _ _ _ (by simp), writeVoiceOut_reg_ne _ _ _ _ _ (by simp), h]
  | v2 =>
    rw [writeVoiceOut_reg_ne _ _ _ _ _ (by simp), h]
  | v3 => exact h _

theorem freq16_evalRoutes (v : VoiceId) : freq16 (evalRoutes e).audio v =
    freqOut e.vm (lfoSource e.modulation) (envSource e.modulation) v := by
  rw [freq16, evalRoutes_reg_voice e fun c => writeVoiceOut_freqHi _ _ _ c v,
    evalRoutes_reg_voice e fun c => writeVoiceOut_freqLo _ _ _ c v]
  exact BitVec.extractLsb'_append_extractLsb'

theorem pw12_evalRoutes (v : VoiceId) : pw12 (evalRoutes e).audio v =
    pwOut e.vm (lfoSource e.modulation) (envSource e.modulation) v := by
  rw [pw12, evalRoutes_reg_voice e fun c => writeVoiceOut_pwHi _ _ _ c v,
    evalRoutes_reg_voice e fun c => writeVoiceOut_pwLo _ _ _ c v, setWidth_extractLsb'_of_le _ (by decide)]
  exact BitVec.extractLsb'_append_extractLsb'

theorem evalRoutes_pwHi_lt (v : VoiceId) : ((evalRoutes e).audio.reg (.voice v .pwHi)).toNat < 16 := by
  rw [evalRoutes_reg_voice e fun c => writeVoiceOut_pwHi _ _ _ c v, BitVec.toNat_setWidth_of_le (by decide)]
  exact BitVec.isLt _

theorem evalRoutes_fcLo : (evalRoutes e).audio.reg .fcLo =
    ((fcOut e.vm (lfoSource e.modulation) (envSource e.modulation)).extractLsb' 0 3).setWidth 8 := by
  rw [evalRoutes_audio, writeCutoffOut_eq, Chip.reg_setReg_ne _ _ (by simp), Chip.reg_setReg_self]

theorem evalRoutes_fcHi : (evalRoutes e).audio.reg .fcHi =
    (fcOut e.vm (lfoSource e.modulation) (envSource e.modulation)).extractLsb' 3 8 := by
  rw [evalRoutes_audio, writeCutoffOut_eq, Chip.reg_setReg_self]

theorem fc11_evalRoutes : fc11 (evalRoutes e).audio =
    fcOut e.vm (lfoSource e.modulation) (envSource e.modulation) := by
  rw [fc11, evalRoutes_fcHi, evalRoutes_fcLo, setWidth_extractLsb'_of_le _ (by decide)]
  exact BitVec.extractLsb'_append_extractLsb'

theorem evalRoutes_fcLo_lt : ((evalRoutes e).audio.reg .fcLo).toNat < 8 := by
  rw [evalRoutes_fcLo, BitVec.toNat_setWidth_of_le (by decide)]
  exact BitVec.isLt _

/-- The addresses of the fourteen registers that the routes write. -/
def routedAddrs : List ℕ := [0x00, 0x01, 0x02, 0x03, 0x07, 0x08, 0x09, 0x0A, 0x0E, 0x0F, 0x10, 0x11, 0x15, 0x16]

theorem addr_mem_routedAddrs (v : VoiceId) {r : VReg} (h : r.isRouted = true) : (Reg.voice v r).addr ∈ routedAddrs := by
  cases v <;> revert r <;> rintro (_ | _) <;> decide

theorem evalRoutes_regs_ne {i : ℕ} (hi : i < 32) (h : i ∉ routedAddrs) : (evalRoutes e).audio.regs[i] = e.audio.regs[i] := by
  have hvoice (v : VoiceId) (r : VReg) (hr : r.isRouted = true) : (Reg.voice v r).addr ≠ i :=
    fun hc => h (hc ▸ addr_mem_routedAddrs v hr)
  rw [evalRoutes_audio, writeCutoffOut_regs_ne _ _ _ _ hi (by rintro rfl; exact h (by decide))
    (by rintro rfl; exact h (by decide)), voicesRouted]
  rw [writeVoiceOut_regs_ne _ _ _ _ _ hi (hvoice .v3), writeVoiceOut_regs_ne _ _ _ _ _ hi (hvoice .v2),
    writeVoiceOut_regs_ne _ _ _ _ _ hi (hvoice .v1)]

end Routes

/-- The routes change nothing of the audio chip but its registers. -/
theorem evalRoutes_eq (e : Engine) :
    evalRoutes e = { e with audio := { e.audio with regs := (evalRoutes e).audio.regs } } := by
  have hvoice (m : VoiceManager) (lfo env : F32) (c : Chip) (v : VoiceId) :
      ∃ regs, writeVoiceOut m lfo env c v = { c with regs := regs } := ⟨_, rfl⟩
  have hcutoff (m : VoiceManager) (lfo env : F32) (c : Chip) :
      ∃ regs, writeCutoffOut m lfo env c = { c with regs := regs } := ⟨_, rfl⟩
  refine engine_eq_mk rfl ?_ rfl
  rw [evalRoutes_audio, voicesRouted]
  obtain ⟨r1, h1⟩ := hvoice e.vm (lfoSource e.modulation) (envSource e.modulation) e.audio .v1
  obtain ⟨r2, h2⟩ := hvoice e.vm (lfoSource e.modulation) (envSource e.modulation) { e.audio with regs := r1 } .v2
  obtain ⟨r3, h3⟩ := hvoice e.vm (lfoSource e.modulation) (envSource e.modulation) { e.audio with regs := r2 } .v3
  obtain ⟨r4, h4⟩ := hcutoff e.vm (lfoSource e.modulation) (envSource e.modulation) { e.audio with regs := r3 }
  rw [h1, h2, h3, h4]

@[simp] theorem evalRoutes_params (e : Engine) : (evalRoutes e).audio.params = e.audio.params := by
  simp only [evalRoutes_audio, writeCutoffOut_eq, voicesRouted, writeVoiceOut_eq, Chip.setReg_params]

/-- The table of route bits, as the statement writes it, is that of `Mod` for each voice (R303). -/
theorem routeBits_of_mem {x : VoiceId × Fin 17 × Fin 17 × Fin 17 × Fin 17 × Fin 32}
    (hx : x ∈ [(VoiceId.v1, (0 : Fin 17), (3 : Fin 17), (7 : Fin 17), (10 : Fin 17), (0x03 : Fin 32)),
      (.v2, 1, 4, 8, 11, 0x0A), (.v3, 2, 5, 9, 12, 0x11)]) (m : VoiceManager) :
    let bits : Fin 17 × Fin 17 × Fin 17 × Fin 17 :=
      if m.keymode = .poly1 then (0, 3, 7, 10) else (x.2.1, x.2.2.1, x.2.2.2.1, x.2.2.2.2.1)
    bits.1.val = routeIndex m x.1 ∧ bits.2.1.val = routeIndex m x.1 + 3 ∧ bits.2.2.1.val = routeIndex m x.1 + 7
      ∧ bits.2.2.2.val = routeIndex m x.1 + 10 ∧ x.2.2.2.2.2.val = (Reg.voice x.1 .pwHi).addr := by
  unfold routeIndex
  split <;> (revert x; decide)

/-- Settles O54: each field of a voice is its clamped value, and each value is the statement's by its route bits. -/
theorem routesWriteFourteenRegisters : Obligations.RoutesWriteFourteenRegisters := by
  intro e e' m lfo env md bend
  have hmd (bl be : Fin 17) (ts : F32) : md bl be ts = modSum m.routes lfo env bl.val be.val ts := rfl
  refine ⟨?_, fun r hr => ?_, fun x hx => ?_, ?_, ?_⟩
  · exact evalRoutes_eq e
  · exact evalRoutes_regs_ne e r.isLt hr
  · intro p ts bits mpw mf factor
    obtain ⟨h0, h3, h7, h10, hreg⟩ := routeBits_of_mem hx m
    have hmpw : mpw = modPw m lfo env x.1 := by
      show md bits.1 bits.2.2.1 ts = _
      rw [hmd, h0, h7]
      rfl
    have hmf : mf = modFreq m lfo env x.1 := by
      show md bits.2.1 bits.2.2.2 ts = _
      rw [hmd, h3, h10]
      rfl
    have hfactor : factor = freqFactor m lfo env x.1 := by
      show fadd (fadd f1 (fmul m.depthF mf)) (fmul bend fEighth) = _
      rw [hmf]
      rfl
    refine ⟨?_, ?_, ?_⟩
    · rw [freq16_evalRoutes, freqOut_toNat, hfactor]
      rfl
    · rw [pw12_evalRoutes, pwOut_toNat, hmpw]
      rfl
    · have hpw : e'.audio.regs[x.2.2.2.2.2] = e'.audio.reg (.voice x.1 .pwHi) := by
        simp only [Chip.reg, Fin.getElem_fin, hreg]
      rw [hpw]
      exact evalRoutes_pwHi_lt e x.1
  · rw [fc11_evalRoutes, fcOut_toNat]
    rfl
  · exact evalRoutes_fcLo_lt e

end Sys2Proof.Machine
end

section
/-! PROOFS. The arpeggiator (R310 to R315): one update as the table rebuilt, then rest, counting or a step that is due. -/

namespace Sys2Proof.Machine

open Sys2Proof

/-! ### The parts of an update -/

@[simp] theorem assignVoice_arpCnt (c : Cfg) (e : Engine) (v : VoiceId) (k : Key) :
    (assignVoice c e v k).vm.arpCnt = e.vm.arpCnt := by
  rw [assignVoice_vm]; rfl

/-- The engine with the arpeggiator table rebuilt (R310). -/
def withTable (e : Engine) : Engine := { e with vm := rebuildArp e.vm }

/-- The keys of the rebuilt table (R310). -/
def tableKeys (m : VoiceManager) : List Key := (arpKeys m).take m.arpCap

theorem hasArp_iff (m : KeyMode) : hasArp m = true ↔ m = .poly3 ∨ m = .poly4 := by
  simp [hasArp]

theorem arpUpdate_of_no_arp (c : Cfg) {e : Engine} (h : hasArp e.vm.keymode = false) : arpUpdate c e = e := by
  simp only [arpUpdate, h, Bool.false_eq_true, if_false]

theorem arpUpdate_of_empty (c : Cfg) {e : Engine} (h : hasArp e.vm.keymode = true) (hks : tableKeys e.vm = []) :
    arpUpdate c e = arpEmpty (withTable e) := by
  have hlen : (rebuildArp e.vm).arpLen = 0 := List.length_eq_zero_iff.2 hks
  simp only [arpUpdate, h, if_true, hlen]
  rfl

theorem arpUpdate_of_table (c : Cfg) {e : Engine} (h : hasArp e.vm.keymode = true) (hks : tableKeys e.vm ≠ []) :
    arpUpdate c e = (arpDue c (withTable e)).addArpCnt (-c.blockSize) := by
  have hlen : (rebuildArp e.vm).arpLen ≠ 0 := fun hc => hks (List.length_eq_zero_iff.1 hc)
  simp only [arpUpdate, h, if_true, if_neg hlen]
  rfl

theorem arpDue_of_counting (c : Cfg) {e : Engine} (h : 0 < e.vm.arpCnt.toInt) : arpDue c e = e :=
  if_neg (by omega)

theorem arpDue_of_due (c : Cfg) {e : Engine} (h : e.vm.arpCnt.toInt ≤ 0) :
    arpDue c e = (arpStep c e).addArpCnt (max e.vm.arpRate.toNat c.blockSize) :=
  if_pos h

/-- The keys of the arpeggiator zone, as the statement selects them. -/
theorem arpKeys_eq_filter {m : VoiceManager} (hm : m.keymode = .poly3 ∨ m.keymode = .poly4) :
    arpKeys m = allKeys.filter fun k => m.isKnown k &&
      if m.keymode = .poly3 then decide (k.toNat < m.split.toNat) else decide (m.split.toNat ≤ k.toNat) := by
  refine List.filter_congr fun k _ => ?_
  obtain h | h := hm
  · simp [polyZone, h, ← decide_not]
  · simp [polyZone, h, ← decide_not]

/-- A count in the statement's arithmetic: a rate added, a block taken away. -/
theorem add_ofInt_neg_natCast (x : BitVec 32) (n : ℕ) : x + BitVec.ofInt 32 (-(n : ℤ)) = x - BitVec.ofNat 32 n := by
  rw [BitVec.ofInt_neg, BitVec.ofInt_natCast, BitVec.sub_eq_add_neg]

theorem add_ofInt_max_natCast (x : BitVec 32) (a b : ℕ) :
    x + BitVec.ofInt 32 (max (a : ℤ) b) = x + BitVec.ofNat 32 (max a b) := by
  rw [← Nat.cast_max, BitVec.ofInt_natCast]

/-! ### A step that is due (R313) -/

/-- The engine moved to the next table entry. -/
def movedOn (e : Engine) : Engine :=
  { e with vm := { e.vm with arpIdx := nextArpIdx e.vm, arpKey := some (e.vm.arp.getD (nextArpIdx e.vm) 0#7) } }

/-- The same with the waveform scanned when `arp_scan` asks for it. -/
def scannedOn (e : Engine) : Engine := if e.vm.arpScan then waveScan (movedOn e) else movedOn e

theorem arpStep_eq (c : Cfg) (e : Engine) : arpStep c e = arpPlay c (scannedOn e) (e.vm.arp.getD (nextArpIdx e.vm) 0#7) :=
  rfl

theorem scannedOn_arpCnt (e : Engine) : (scannedOn e).vm.arpCnt = e.vm.arpCnt := by
  unfold scannedOn; split <;> rfl

theorem scannedOn_arpRetrig (e : Engine) : (scannedOn e).vm.arpRetrig = e.vm.arpRetrig := by
  unfold scannedOn; split <;> rfl

theorem scannedOn_vkey (e : Engine) : ((scannedOn e).vm.voice .v2).vkey = (e.vm.voice .v2).vkey := by
  unfold scannedOn; split <;> rfl

/-- Retrigger on a sounding voice. -/
theorem retriggers_iff (m : VoiceManager) :
    (m.arpRetrig && (m.voice .v2).vkey != none) = true ↔ m.arpRetrig = true ∧ (m.voice .v2).vkey ≠ none := by
  rw [Bool.and_eq_true, bne_iff_ne]

theorem arpPlay_of_immediate (c : Cfg) {e : Engine} (k : Key)
    (h : e.vm.arpRetrig = false ∨ (e.vm.voice .v2).vkey = none) : arpPlay c e k = assignVoice c e .v2 k := by
  have hnot : ¬(e.vm.arpRetrig && (e.vm.voice .v2).vkey != none) = true := by
    rw [retriggers_iff]
    rintro ⟨hr, hv⟩
    obtain h | h := h
    · rw [h] at hr; cases hr
    · exact hv h
  rw [arpPlay, if_neg hnot]

theorem arpPlay_arpCnt (c : Cfg) (e : Engine) (k : Key) : (arpPlay c e k).vm.arpCnt = e.vm.arpCnt := by
  by_cases hr : (e.vm.arpRetrig && (e.vm.voice .v2).vkey != none) = true
  · rw [arpPlay_of_retrigger c k hr]; rfl
  · rw [arpPlay, if_neg hr]; exact assignVoice_arpCnt ..

theorem arpStep_arpCnt (c : Cfg) (e : Engine) : (arpStep c e).vm.arpCnt = e.vm.arpCnt := by
  rw [arpStep_eq, arpPlay_arpCnt, scannedOn_arpCnt]

/-- The entry the arpeggiator moves to is one of the keys just written (R313). -/
theorem getElem?_tableKeys_nextArpIdx {m : VoiceManager} (hks : tableKeys m ≠ []) :
    (tableKeys m)[nextArpIdx (rebuildArp m)]? = some ((rebuildArp m).arp.getD (nextArpIdx (rebuildArp m)) 0#7) := by
  have hlen : (rebuildArp m).arpLen ≠ 0 := fun hc => hks (List.length_eq_zero_iff.1 hc)
  have hlt : nextArpIdx (rebuildArp m) < (tableKeys m).length := nextArpIdx_lt hlen
  have harp : (rebuildArp m).arp = tableKeys m ++ m.arp.drop (tableKeys m).length := rfl
  rw [harp, List.getD_eq_getElem?_getD, List.getElem?_append_left hlt, List.getElem?_eq_getElem hlt, Option.getD_some]

/-- Wave scanning rotates bits 6:4 and keeps the others (R314). -/
theorem rotateWave_bits (b : Byte) : (rotateWave b)[5] = b[4] ∧ (rotateWave b)[6] = b[5] ∧ (rotateWave b)[4] = b[6]
    ∧ (rotateWave b)[7] = b[7] ∧ (rotateWave b).extractLsb' 0 4 = b.extractLsb' 0 4 := by
  revert b
  unfold rotateWave
  decide

/-- Settles O55: the update by its cases, each with the counter as the two additions leave it. -/
theorem arpeggiatorUpdateWalksItsTable : Obligations.ArpeggiatorUpdateWalksItsTable := by
  refine ⟨fun c e => ?_, fun e => ⟨rotateWave (e.vm.voice .v2).actrl, rfl, rotateWave_bits _⟩⟩
  intro zone ks table counted
  refine ⟨fun hm => arpUpdate_of_no_arp c (by obtain h | h | h := hm <;> rw [h] <;> rfl), fun hm => ?_⟩
  have hks : tableKeys e.vm = ks := by rw [tableKeys, arpKeys_eq_filter hm]; rfl
  have htable : withTable e = table := by
    show withTable e = { e with vm := { e.vm with arp := ks ++ e.vm.arp.drop ks.length, arpLen := ks.length } }
    rw [← hks]
    rfl
  have hmode := (hasArp_iff e.vm.keymode).2 hm
  refine ⟨fun hnil => ?_, fun hne hcnt => ?_, fun hne hcnt => ?_⟩
  · intro f
    rw [arpUpdate_of_empty c hmode (hks.trans hnil), htable]
    rfl
  · rw [arpUpdate_of_table c hmode (by rwa [hks]), htable, arpDue_of_counting c (by exact hcnt)]
    simp only [Engine.addArpCnt, add_ofInt_neg_natCast]
    rfl
  · intro idx cnt
    have hupdate : arpUpdate c e = counted (arpStep c table) cnt := by
      rw [arpUpdate_of_table c hmode (by rwa [hks]), htable, arpDue_of_due c (by exact hcnt)]
      simp only [Engine.addArpCnt, add_ofInt_neg_natCast, add_ofInt_max_natCast, arpStep_arpCnt]
      rfl
    have hvm : rebuildArp e.vm = table.vm := congrArg Engine.vm htable
    refine ⟨table.vm.arp.getD (nextArpIdx table.vm) 0#7, ?_, ?_⟩
    · have hentry := getElem?_tableKeys_nextArpIdx (m := e.vm) (by rwa [hks])
      rw [hks, hvm] at hentry
      exact hentry
    · intro moved g p
      have hg : scannedOn table = g := rfl
      rw [hupdate, arpStep_eq, hg]
      refine ⟨fun hr => ?_, fun hi => ?_⟩
      · rw [arpPlay_of_retrigger]
        · rfl
        · rw [retriggers_iff, ← hg, scannedOn_arpRetrig, scannedOn_vkey]
          exact hr
      · rw [arpPlay_of_immediate]
        rw [← hg, scannedOn_arpRetrig, scannedOn_vkey]
        exact hi

end Sys2Proof.Machine
end

section
/-! PROOFS. The engine clock (R265, R268): the schedule of a block with the place of each sample, and what a block leaves
alone, as one relation that every operation of a block keeps. -/

namespace Sys2Proof.Machine

open Sys2Proof

/-! ### The schedule (R265) -/

theorem arpOwed_of_nothing (c : Cfg) {e : Engine} (h : e.vm.arpPending = false) : arpOwed c e = e := by
  simp [arpOwed, h]

theorem arpOwed_of_key (c : Cfg) {e : Engine} {k : Key} (hp : e.vm.arpPending = true) (hk : e.vm.arpKey = some k) :
    arpOwed c e =
      { assignVoice c e .v2 k with vm := { (assignVoice c e .v2 k).vm with arpPending := false } } := by
  simp [arpOwed, hp, hk]

/-- The engine after the sub-blocks of a CLK. -/
theorem runBlock_fst (c : Cfg) (e : Engine) : (runBlock c e).1 =
    (fun e => arpOwed c ((clkTick c)^[16] (evalRoutes e)))^[c.blockSize / 16] (arpUpdate c (scan c e)) := by
  rw [runBlock, subBlocks_fst, show subblock = 16 from rfl]
  simp only [subBlock_fst]

/-- Sample `16 * j + i` of a CLK is that of tick `i` of sub-block `j`. -/
theorem runBlock_getElem? (c : Cfg) (e : Engine) {j i : ℕ} (hj : j < c.blockSize / 16) (hi : i < 16) :
    (runBlock c e).2[16 * j + i]? = some ((clkTick c)^[i + 1] (evalRoutes
      ((fun e => arpOwed c ((clkTick c)^[16] (evalRoutes e)))^[j] (arpUpdate c (scan c e))))).audio.sample := by
  have hticks (e : Engine) : (subBlock c e).2 = (clkTicks c 16 (evalRoutes e)).2 := rfl
  rw [runBlock, show subblock = 16 from rfl, subBlocks_getElem? c _ j i _ hj hi, hticks, clkTicks_getElem? c 16 i _ hi]
  simp only [subBlock_fst]

/-- Settles O57: the two results of a block, read at each place. -/
theorem clockFollowsItsSchedule : Obligations.ClockFollowsItsSchedule := by
  refine ⟨fun c e => ⟨arpOwed_of_nothing c, fun key => arpOwed_of_key c⟩, fun s a m _ hp => ?_⟩
  intro k pair sub start
  refine ⟨_, execClk_of_pair hp, ?_, fun j i hj hi => ?_⟩
  · rw [runBlock_fst]
    rfl
  · rw [State.withRsp_rsp, List.getElem?_map, runBlock_getElem? k _ hj hi]
    rfl

/-! ### What a block leaves alone (R268) -/

/-- The fields of the VoiceManager that no rule of a block writes: the key map, the velocities and what controllers set. -/
abbrev Settings := Vector Bool 128 × Vector Velocity 128 × BitVec 17 × F32 × F32 × F32 × F32 × F32 × BitVec 11 × Key
  × KeyMode × BitVec 32 × Bool × Bool

def VoiceManager.settings (m : VoiceManager) : Settings :=
  (m.keymap, m.keyvel, m.routes, m.depthPw, m.depthF, m.depthFc, m.touch, m.pitch, m.fcBase, m.split, m.keymode, m.arpRate,
    m.arpRetrig, m.arpScan)

/-- The fields of a voice that controllers set. -/
def PolicyVoice.settings (p : PolicyVoice) : F32 × BitVec 8 × BitVec 32 × BitVec 12 :=
  (p.tune, p.transpose, p.glideN, p.pwBase)

/-- The addresses of the audio chip that neither the VoiceManager nor a tick writes (R268). -/
def unownedAddrs : List ℕ := [0x05, 0x06, 0x0C, 0x0D, 0x13, 0x14, 0x17, 0x18, 0x19, 0x1A, 0x1D, 0x1E, 0x1F]

/-- What a block leaves alone. -/
structure ClockFrame (e e' : Engine) : Prop where
  manager : e'.vm.settings = e.vm.settings
  voices : ∀ v, (e'.vm.voice v).settings = (e.vm.voice v).settings
  audioRegs : ∀ i (hi : i < 32), i ∈ unownedAddrs → e'.audio.regs[i] = e.audio.regs[i]
  audioParams : e'.audio.params = e.audio.params
  modulationRegs : ∀ i (hi : i < 32), i ≠ 0x1B → i ≠ 0x1C → e'.modulation.regs[i] = e.modulation.regs[i]
  modulationParams : e'.modulation.params = e.modulation.params

theorem ClockFrame.refl (e : Engine) : ClockFrame e e :=
  ⟨rfl, fun _ => rfl, fun _ _ _ => rfl, rfl, fun _ _ _ _ => rfl, rfl⟩

theorem ClockFrame.trans {e e' e'' : Engine} (h : ClockFrame e e') (h' : ClockFrame e' e'') : ClockFrame e e'' where
  manager := h'.manager.trans h.manager
  voices v := (h'.voices v).trans (h.voices v)
  audioRegs i hi hu := (h'.audioRegs i hi hu).trans (h.audioRegs i hi hu)
  audioParams := h'.audioParams.trans h.audioParams
  modulationRegs i hi h1 h2 := (h'.modulationRegs i hi h1 h2).trans (h.modulationRegs i hi h1 h2)
  modulationParams := h'.modulationParams.trans h.modulationParams

/-- A change of the VoiceManager alone. -/
theorem ClockFrame.of_vm (e : Engine) {vm : VoiceManager} (hm : vm.settings = e.vm.settings)
    (hv : ∀ v, (vm.voice v).settings = (e.vm.voice v).settings) : ClockFrame e { e with vm := vm } :=
  ⟨hm, hv, fun _ _ _ => rfl, rfl, fun _ _ _ _ => rfl, rfl⟩

/-- The VoiceManager writes a register it owns. -/
theorem ClockFrame.writeAudio (e : Engine) {r : Reg} (hr : r.addr ∉ unownedAddrs) (d : Byte) :
    ClockFrame e { e with audio := e.audio.setReg r d } where
  manager := rfl
  voices _ := rfl
  audioRegs _ hi hu := e.audio.regs_setReg_ne d hi fun hc => hr (hc ▸ hu)
  audioParams := rfl
  modulationRegs _ _ _ _ := rfl
  modulationParams := rfl

theorem ClockFrame.setVoice (e : Engine) {v : VoiceId} {p : PolicyVoice} (h : p.settings = (e.vm.voice v).settings) :
    ClockFrame e (e.setVoice v p) :=
  .of_vm e rfl fun u => by
    rw [VoiceManager.voice_setVoice]
    split
    · next hu => rw [h, hu]
    · rfl

theorem ctrl_not_mem_unownedAddrs (v : VoiceId) : (Reg.voice v .ctrl).addr ∉ unownedAddrs := by
  cases v <;> decide

theorem ClockFrame.writeActrl (e : Engine) (v : VoiceId) (b : Byte) : ClockFrame e (e.writeActrl v b) :=
  (ClockFrame.setVoice e (p := { e.vm.voice v with actrl := b }) rfl).trans (.writeAudio _ (ctrl_not_mem_unownedAddrs v) b)

theorem ClockFrame.setKnown (e : Engine) (k : Key) (b : Bool) : ClockFrame e (e.setKnown k b) :=
  .of_vm e rfl fun _ => rfl

theorem ClockFrame.freeVoice (e : Engine) (v : VoiceId) : ClockFrame e (freeVoice e v) := by
  have hkey : ClockFrame e (e.setVoice v { e.vm.voice v with vkey := none }) := .setVoice e rfl
  simp only [Machine.freeVoice]
  split
  · exact hkey.trans (.writeActrl _ v _)
  · exact hkey

theorem ClockFrame.assignVoice (c : Cfg) (e : Engine) (v : VoiceId) (k : Key) : ClockFrame e (assignVoice c e v k) := by
  have hvoice : ClockFrame e (e.setVoice v (assignedVoice c (e.vm.voice v) k (e.vm.velOf k) (targetFreq e v k))) :=
    .setVoice e (by unfold assignedVoice; split <;> rfl)
  have hvel (e : Engine) (vel : Velocity) : ClockFrame e { e with vm := { e.vm with lastvel := vel } } :=
    .of_vm e rfl fun _ => rfl
  simp only [Machine.assignVoice]
  split
  · exact hvoice.trans (hvel _ _)
  · exact (hvoice.trans (hvel _ _)).trans (.writeActrl _ v _)

theorem ClockFrame.scan (c : Cfg) (e : Engine) : ClockFrame e (scan c e) :=
  scan_induction (P := ClockFrame e) (fun _ k b h => h.trans (.setKnown _ k b)) (fun _ v h => h.trans (.freeVoice _ v))
    (fun _ v k h => h.trans (.assignVoice c _ v k)) (.refl e)

theorem ClockFrame.addArpCnt (e : Engine) (n : ℤ) : ClockFrame e (e.addArpCnt n) :=
  .of_vm e rfl fun _ => rfl

theorem ClockFrame.arpEmpty (e : Engine) : ClockFrame e (arpEmpty e) := by
  have hrest (e : Engine) : ClockFrame e
      { e with vm := { e.vm with arpKey := none, arpIdx := 0, arpCnt := 0#32, arpPending := false } } :=
    .of_vm e rfl fun _ => rfl
  simp only [Machine.arpEmpty]
  split
  · exact hrest e
  · exact (ClockFrame.freeVoice e .v2).trans (hrest _)

theorem ClockFrame.arpPlay (c : Cfg) (e : Engine) (k : Key) : ClockFrame e (arpPlay c e k) := by
  have howed (e : Engine) : ClockFrame e { e with vm := { e.vm with arpPending := true } } := .of_vm e rfl fun _ => rfl
  simp only [Machine.arpPlay]
  split
  · split
    · exact (ClockFrame.writeActrl e .v2 _).trans (howed _)
    · exact howed e
  · exact .assignVoice c e .v2 k

theorem ClockFrame.arpStep (c : Cfg) (e : Engine) : ClockFrame e (arpStep c e) := by
  have hmoved : ClockFrame e (movedOn e) := .of_vm e rfl fun _ => rfl
  have hscanned : ClockFrame e (scannedOn e) := by
    unfold scannedOn
    split
    · exact hmoved.trans (.writeActrl _ .v2 _)
    · exact hmoved
  rw [arpStep_eq]
  exact hscanned.trans (.arpPlay c _ _)

theorem ClockFrame.arpUpdate (c : Cfg) (e : Engine) : ClockFrame e (arpUpdate c e) := by
  have htable : ClockFrame e (withTable e) := .of_vm e rfl fun _ => rfl
  cases hmode : hasArp e.vm.keymode with
  | false =>
    rw [arpUpdate_of_no_arp c hmode]
    exact .refl e
  | true =>
    by_cases hks : tableKeys e.vm = []
    · rw [arpUpdate_of_empty c hmode hks]
      exact htable.trans (.arpEmpty _)
    · rw [arpUpdate_of_table c hmode hks]
      refine (htable.trans ?_).trans (.addArpCnt _ _)
      unfold arpDue
      split
      · exact (ClockFrame.arpStep c _).trans (.addArpCnt _ _)
      · exact .refl _

theorem not_mem_routedAddrs {i : ℕ} (h : i ∈ unownedAddrs) : i ∉ routedAddrs := by
  revert i
  decide

theorem ClockFrame.evalRoutes (e : Engine) : ClockFrame e (evalRoutes e) where
  manager := by rw [evalRoutes_vm]
  voices _ := by rw [evalRoutes_vm]
  audioRegs _ hi hu := evalRoutes_regs_ne e hi (not_mem_routedAddrs hu)
  audioParams := evalRoutes_params e
  modulationRegs _ _ _ _ := by simp only [evalRoutes_modulation]
  modulationParams := by rw [evalRoutes_modulation]

theorem glideVoice_settings (p : PolicyVoice) : (glideVoice p).settings = p.settings := by
  unfold glideVoice
  split <;> rfl

theorem ne_taps_of_mem_unownedAddrs {i : ℕ} (h : i ∈ unownedAddrs) : i ≠ 0x1B ∧ i ≠ 0x1C := by
  revert i
  decide

theorem ClockFrame.clkTick (c : Cfg) (e : Engine) : ClockFrame e (clkTick c e) where
  manager := rfl
  voices v := by
    show ((glideStep e.vm).voice v).settings = _
    rw [glideStep_voice, glideVoice_settings]
  audioRegs i hi hu := tick_reg_of_ne c e.audio hi (ne_taps_of_mem_unownedAddrs hu).1 (ne_taps_of_mem_unownedAddrs hu).2
  audioParams := tick_params c e.audio
  modulationRegs i hi h1 h2 := tick_reg_of_ne c e.modulation hi h1 h2
  modulationParams := tick_params c e.modulation

theorem ClockFrame.arpOwed (c : Cfg) (e : Engine) : ClockFrame e (arpOwed c e) := by
  have hpaid (e : Engine) : ClockFrame e { e with vm := { e.vm with arpPending := false } } := .of_vm e rfl fun _ => rfl
  obtain ⟨-, h⟩ | ⟨-, -, h⟩ | ⟨k, -, -, h⟩ := arpOwed_cases c e
  · rw [h]; exact .refl e
  · rw [h]; exact hpaid e
  · rw [h]; exact (ClockFrame.assignVoice c e .v2 k).trans (hpaid _)

theorem ClockFrame.subBlock (c : Cfg) (e : Engine) : ClockFrame e (subBlock c e).1 :=
  (clkTicks_induction (P := ClockFrame e) (fun _ h => h.trans (.clkTick c _)) subblock (.evalRoutes e)).trans (.arpOwed c _)

theorem ClockFrame.runBlock (c : Cfg) (e : Engine) : ClockFrame e (runBlock c e).1 :=
  subBlocks_induction (P := ClockFrame e) (fun _ h => h.trans (.subBlock c _)) _
    ((ClockFrame.scan c e).trans (.arpUpdate c _))

/-! ### The last sample -/

theorem arpOwed_sample (c : Cfg) (e : Engine) : (arpOwed c e).audio.sample = e.audio.sample := by
  obtain ⟨-, h⟩ | ⟨-, -, h⟩ | ⟨k, -, -, h⟩ := arpOwed_cases c e
  · rw [h]
  · rw [h]
  · rw [h]
    show (assignVoice c e .v2 k).audio.sample = _
    rw [assignVoice_audio]
    split <;> rfl

/-- The last sample of a legal block is the one its audio chip holds. -/
theorem runBlock_getLast? {c : Cfg} (hc : c.wf) (e : Engine) :
    (runBlock c e).2.getLast? = some (runBlock c e).1.audio.sample := by
  obtain ⟨-, h16, hmod⟩ := id hc
  obtain ⟨n, hn⟩ : ∃ n, c.blockSize / 16 = n + 1 := Nat.exists_eq_add_one.2 (Nat.div_pos h16 (by decide))
  have hlast : (runBlock c e).2.length - 1 = 16 * n + 15 := by
    rw [runBlock_length hc]
    omega
  rw [List.getLast?_eq_getElem?, hlast, runBlock_getElem? c e (by omega) (by decide), runBlock_fst, hn,
    Function.iterate_succ_apply' (f := fun e => arpOwed c _), arpOwed_sample]

/-- Settles O56: the completion of CLK, with its frame read off field by field. -/
theorem clockProducesOneBlock : Obligations.ClockProducesOneBlock := by
  intro s a m hc hp
  have hframe := ClockFrame.runBlock s.cfg { vm := s.vm, audio := a, modulation := m }
  have hvm := hframe.manager
  simp only [VoiceManager.settings, Prod.mk.injEq] at hvm
  obtain ⟨hkeymap, hkeyvel, hroutes, hpw, hf, hfc, htouch, hpitch, hbase, hsplit, hmode, hrate, hretrig, hscan⟩ := hvm
  refine ⟨_, _, _, _, execClk_of_pair hp, runBlock_length hc _, rfl, runBlock_getLast? hc _, rfl, rfl, rfl,
    fun r => hframe.modulationRegs r.val r.isLt, fun r => hframe.audioRegs r.val r.isLt, hframe.modulationParams,
    hframe.audioParams, hkeymap, hkeyvel, hroutes, hpw, hf, hfc, htouch, hpitch, hbase, hsplit, hmode, hrate, hretrig, hscan,
    fun v => ?_⟩
  have hvoice := hframe.voices v
  simp only [PolicyVoice.settings, Prod.mk.injEq] at hvoice
  exact hvoice

end Sys2Proof.Machine
end

section
/-! PROOFS. Glide (R295): one step of a glide, and its landing on the target (P3). -/

namespace Sys2Proof.Machine

open Sys2Proof

/-! ### One step of a glide (R295) -/

theorem flt_self (x : F32) : flt x x = false := by
  unfold flt
  cases unpack x with
  | nan => rfl
  | inf n => cases n <;> rfl
  | fin n m e => exact decide_eq_false (lt_irrefl _)

/-- A frequency on its target is not past it. -/
theorem pastTarget_self (gmul x : F32) : pastTarget gmul x x = false := by
  rw [pastTarget, flt_self, Bool.and_false, Bool.and_false, Bool.or_false]

theorem glideVoice_of_still {p : PolicyVoice} (h : p.gleft = 0#32) : glideVoice p = p := if_pos h

/-- The frequency after one step of a glide. -/
def glidedFreq (p : PolicyVoice) : F32 :=
  if p.gleft = 1#32 then p.ftgt
  else if pastTarget p.gmul (fmul p.fcur p.gmul) p.ftgt then p.ftgt else fmul p.fcur p.gmul

theorem sub_one_eq_zero_iff (x : BitVec 32) : x - 1#32 = 0#32 ↔ x = 1#32 := by
  rw [BitVec.sub_eq_iff_eq_add, BitVec.zero_add]

theorem glideVoice_of_gliding {p : PolicyVoice} (h : p.gleft ≠ 0#32) :
    glideVoice p = { p with fcur := glidedFreq p, gleft := p.gleft - 1#32 } := by
  simp only [glideVoice, if_neg h, sub_one_eq_zero_iff, glidedFreq]

theorem pastTarget_iff (gmul f tgt : F32) : pastTarget gmul f tgt = true ↔
    (fle f1 gmul = true ∧ flt tgt f = true) ∨ (fle gmul f1 = true ∧ flt f tgt = true) := by
  rw [pastTarget, Bool.or_eq_true, Bool.and_eq_true, Bool.and_eq_true]

/-- A step lands on the target or stays short of it. -/
theorem pastTarget_glidedFreq (p : PolicyVoice) : pastTarget p.gmul (glidedFreq p) p.ftgt = false := by
  unfold glidedFreq
  split
  · exact pastTarget_self _ _
  · split
    · exact pastTarget_self _ _
    · next h => exact Bool.eq_false_iff.2 h

theorem glideVoice_gleft (p : PolicyVoice) : (glideVoice p).gleft.toNat = p.gleft.toNat - 1 := by
  by_cases h : p.gleft = 0#32
  · rw [glideVoice_of_still h, h]; rfl
  · have hne : p.gleft.toNat ≠ 0 := fun hz => h (BitVec.eq_of_toNat_eq hz)
    rw [glideVoice_of_gliding h, BitVec.toNat_sub, show (1#32).toNat = 1 from rfl]
    omega

/-- A step changes the frequency and the ticks left, nothing else of the voice. -/
theorem glideVoice_frame (p : PolicyVoice) :
    glideVoice p = { p with fcur := (glideVoice p).fcur, gleft := (glideVoice p).gleft } := by
  unfold glideVoice
  split <;> rfl

/-! ### A whole glide (P3) -/

section Iterate
variable (p : PolicyVoice)

theorem iterate_glideVoice_gleft (n : ℕ) : (glideVoice^[n] p).gleft.toNat = p.gleft.toNat - n := by
  induction n with
  | zero => rfl
  | succ n ih => rw [Function.iterate_succ_apply', glideVoice_gleft, ih, Nat.sub_sub]

theorem iterate_glideVoice_frame (n : ℕ) :
    glideVoice^[n] p = { p with fcur := (glideVoice^[n] p).fcur, gleft := (glideVoice^[n] p).gleft } := by
  induction n with
  | zero => rfl
  | succ n ih =>
    rw [Function.iterate_succ_apply', glideVoice_frame, ih]

theorem iterate_glideVoice_gmul (n : ℕ) : (glideVoice^[n] p).gmul = p.gmul := by
  have h := congrArg PolicyVoice.gmul (iterate_glideVoice_frame p n)
  exact h

theorem iterate_glideVoice_ftgt (n : ℕ) : (glideVoice^[n] p).ftgt = p.ftgt := by
  have h := congrArg PolicyVoice.ftgt (iterate_glideVoice_frame p n)
  exact h

/-- While ticks are left, the next frequency is that of one step. -/
theorem iterate_succ_glideVoice_fcur {n : ℕ} (h : n < p.gleft.toNat) :
    (glideVoice^[n + 1] p).fcur = glidedFreq (glideVoice^[n] p) := by
  have hne : (glideVoice^[n] p).gleft ≠ 0#32 := fun hz => by
    have := iterate_glideVoice_gleft p n
    rw [hz, show (0#32).toNat = 0 from rfl] at this
    omega
  rw [Function.iterate_succ_apply', glideVoice_of_gliding hne]

theorem pastTarget_iterate_glideVoice {n : ℕ} (h0 : 0 < n) (h : n ≤ p.gleft.toNat) :
    pastTarget p.gmul (glideVoice^[n] p).fcur p.ftgt = false := by
  obtain ⟨n, rfl⟩ := Nat.exists_eq_add_one.2 h0
  have hstep := pastTarget_glidedFreq (glideVoice^[n] p)
  rwa [iterate_glideVoice_gmul, iterate_glideVoice_ftgt, ← iterate_succ_glideVoice_fcur p h] at hstep

/-- The last tick lands on the target, and then the voice stands still. -/
theorem iterate_glideVoice_landed (h0 : 0 < p.gleft.toNat) {n : ℕ} (h : p.gleft.toNat ≤ n) :
    (glideVoice^[n] p).fcur = p.ftgt ∧ (glideVoice^[n] p).gleft = 0#32 := by
  have hzero {n : ℕ} (h : p.gleft.toNat ≤ n) : (glideVoice^[n] p).gleft = 0#32 :=
    BitVec.eq_of_toNat_eq (by rw [iterate_glideVoice_gleft, Nat.sub_eq_zero_of_le h]; rfl)
  refine ⟨?_, hzero h⟩
  induction n, h using Nat.le_induction with
  | base =>
    obtain ⟨n, hn⟩ := Nat.exists_eq_add_one.2 h0
    have hlast : (glideVoice^[n] p).gleft = 1#32 :=
      BitVec.eq_of_toNat_eq (by rw [iterate_glideVoice_gleft, hn, Nat.add_sub_cancel_left]; rfl)
    rw [hn, iterate_succ_glideVoice_fcur p (by omega), glidedFreq, if_pos hlast, iterate_glideVoice_ftgt]
  | succ n hle ih => rw [Function.iterate_succ_apply', glideVoice_of_still (hzero hle), ih]

end Iterate

/-- Settles O51: the step with its conditions side by side, and a whole glide by induction on the ticks. -/
theorem aGlideLandsOnItsTarget : Obligations.AGlideLandsOnItsTarget := by
  refine ⟨fun p => ⟨glideVoice_of_still, fun h => ?_⟩, fun m => ⟨rfl, glideStep_voice m⟩, fun p h0 =>
    ⟨fun n _ => ⟨iterate_glideVoice_gleft p n, iterate_glideVoice_frame p n⟩,
      fun n => pastTarget_iterate_glideVoice p, fun n => iterate_glideVoice_landed p h0⟩⟩
  intro f
  have hfreq : glidedFreq p = if p.gleft = 1#32 ∨ (fle f1 p.gmul = true ∧ flt p.ftgt f = true)
      ∨ (fle p.gmul f1 = true ∧ flt f p.ftgt = true) then p.ftgt else f := by
    rw [glidedFreq, ← ite_or]
    simp only [pastTarget_iff]
    rfl
  rw [glideVoice_of_gliding h, hfreq]
  rfl

end Sys2Proof.Machine
end

section
/-! PROOFS. The contract of `GlideMul` (R296): the root that the reference takes is in the binade of the real root,
and its significand is the lowest of the binade when the real root is. -/

namespace Sys2Proof.Machine

open Sys2Proof

/-! ### Roots (R296) -/

/-- `powLe` compares as it says. -/
theorem powLe_iff (a : ℕ) (k : ℤ) (n m : ℕ) (e : ℤ) :
    powLe a k n m e = true ↔ ((a : ℚ) * 2 ^ k) ^ n ≤ m * 2 ^ e := by
  have hpow : ((a : ℚ) * 2 ^ k) ^ n = a ^ n * 2 ^ (k * n - e) * 2 ^ e := by
    rw [mul_pow, ← zpow_natCast (2 ^ k), ← zpow_mul, mul_assoc, ← zpow_add₀ (by norm_num), sub_add_cancel]
  rw [hpow, mul_le_mul_iff_left₀ (by positivity), powLe]
  cases k * n - e with
  | ofNat s =>
    rw [decide_eq_true_eq, Int.ofNat_eq_natCast, zpow_natCast]
    exact_mod_cast Iff.rfl
  | negSucc s =>
    rw [decide_eq_true_eq, zpow_negSucc, ← div_eq_mul_inv, div_le_iff₀ (by positivity)]
    exact_mod_cast Iff.rfl

/-- Bisection stays within the bits it decides. -/
theorem rootBits_bounds (k : ℤ) (n m : ℕ) (e : ℤ) (i q : ℕ) :
    q ≤ rootBits k n m e i q ∧ rootBits k n m e i q < q + 2 ^ i := by
  induction i generalizing q with
  | zero => simp [rootBits]
  | succ i ih =>
    have hpow : 2 ^ (i + 1) = 2 ^ i + 2 ^ i := by ring
    rw [rootBits, hpow]
    split
    · have := ih (q + 2 ^ i); omega
    · have := ih q; omega

/-- Bisection keeps the number it starts with, or finds one that is not too large. -/
theorem rootBits_eq_or (k : ℤ) (n m : ℕ) (e : ℤ) (i q : ℕ) :
    rootBits k n m e i q = q ∨ powLe (rootBits k n m e i q) k n m e = true := by
  induction i generalizing q with
  | zero => exact .inl rfl
  | succ i ih =>
    rw [rootBits]
    split
    · next hle =>
      obtain hself | hfound := ih (q + 2 ^ i)
      · exact .inr (by rw [hself, hle])
      · exact .inr hfound
    · exact ih q

/-- The exponent of the last place of the root. -/
def rootExp (n m : ℕ) (e : ℤ) : ℤ := (e + (m.log2 : ℤ)) / n - 23

/-- The significand is that of a binade; where it is not the lowest one, the number is above the lowest power. -/
theorem rootRounded_significand {n : ℕ} (hn : n ≠ 0) (m : ℕ) (e : ℤ) : ∃ N : ℕ, 2 ^ 23 ≤ N ∧ N ≤ 2 ^ 24 ∧
    rootRounded n m e = BitVec.ofNat 32 ((rootExp n m e + 149).toNat * 2 ^ 23 + N) ∧
    (N = 2 ^ 23 ∨ (2 ^ 23 * 2 ^ rootExp n m e : ℚ) ^ n < m * 2 ^ e) := by
  set k := rootExp n m e with hk
  set q := rootBits k n m e 23 (2 ^ 23) with hq
  obtain ⟨hlo, hhi⟩ : 2 ^ 23 ≤ q ∧ q < 2 ^ 23 + 2 ^ 23 := rootBits_bounds k n m e 23 (2 ^ 23)
  have habove {a : ℕ} {i : ℤ} (hle : powLe a i n m e = true) (hlt : (2 ^ 23 * 2 ^ k : ℚ) < a * 2 ^ i) :
      (2 ^ 23 * 2 ^ k : ℚ) ^ n < m * 2 ^ e :=
    (pow_lt_pow_left₀ hlt (by positivity) hn).trans_le ((powLe_iff a i n m e).1 hle)
  have hkeep : q = 2 ^ 23 ∨ (2 ^ 23 * 2 ^ k : ℚ) ^ n < m * 2 ^ e := by
    obtain hself | hfound := rootBits_eq_or k n m e 23 (2 ^ 23)
    · exact .inl hself
    · obtain heq | hgt := hlo.eq_or_lt
      · exact .inl heq.symm
      · exact .inr (habove hfound (by gcongr; exact_mod_cast hgt))
  have hround (up : Prop) [Decidable up] (hup : up → powLe (2 * q + 1) (k - 1) n m e = true) :
      ∃ N : ℕ, 2 ^ 23 ≤ N ∧ N ≤ 2 ^ 24 ∧ (if up then q + 1 else q) = N ∧
        (N = 2 ^ 23 ∨ (2 ^ 23 * 2 ^ k : ℚ) ^ n < m * 2 ^ e) := by
    split
    · next h =>
      refine ⟨q + 1, by omega, by omega, rfl, .inr (habove (hup h) ?_)⟩
      have hq' : (2 ^ 23 : ℚ) ≤ q := by exact_mod_cast hlo
      rw [zpow_sub_one₀ (by norm_num), mul_comm (2 ^ k : ℚ), ← mul_assoc]
      gcongr
      push_cast
      linarith
    · exact ⟨q, hlo, by omega, rfl, hkeep⟩
  obtain ⟨N, hNlo, hNhi, hN, hor⟩ := hround
    ((if powLe (2 * q + 1) (k - 1) n m e then
      !((2 * q + 1) ^ n * 2 ^ ((k - 1) * n - e).toNat == m * 2 ^ (e - (k - 1) * n).toNat) || q % 2 == 1
    else false) = true) (fun h => by by_contra hf; rw [if_neg hf] at h; cases h)
  exact ⟨N, hNlo, hNhi, by rw [← hN]; rfl, hor⟩

section Root
variable {n m : ℕ} {e : ℤ}

/-- The root of a binary32 value is well inside the normal range. -/
theorem rootExp_bounds (hn : 2 ≤ n) (hm : m < 2 ^ 24) (he : -149 ≤ e) (he' : e ≤ 104) :
    -98 ≤ rootExp n m e ∧ rootExp n m e ≤ 40 := by
  have hlog : m.log2 < 24 := by
    by_cases h0 : m = 0
    · subst h0; decide
    · exact (Nat.log2_lt h0).2 hm
  have hpos : (0 : ℤ) < n := by omega
  have hlow : -75 ≤ (e + (m.log2 : ℤ)) / n := (Int.le_ediv_iff_mul_le hpos).2 (by omega)
  have hhigh : (e + (m.log2 : ℤ)) / n < 64 := (Int.ediv_lt_iff_lt_mul hpos).2 (by omega)
  unfold rootExp
  omega

/-- The rounded root as a significand of its binade. -/
theorem f32Value_rootRounded (hn : 2 ≤ n) (hm : m < 2 ^ 24) (he : -149 ≤ e) (he' : e ≤ 104) :
    isFinite (rootRounded n m e) = true ∧ ∃ N : ℕ, 2 ^ 23 ≤ N ∧ N ≤ 2 ^ 24 ∧
      f32Value (rootRounded n m e) = N * 2 ^ rootExp n m e ∧
      (N = 2 ^ 23 ∨ (2 ^ 23 * 2 ^ rootExp n m e : ℚ) ^ n < m * 2 ^ e) := by
  obtain ⟨N, hlo, hhi, heq, hor⟩ := rootRounded_significand (n := n) (by omega) m e
  obtain ⟨hk, hk'⟩ := rootExp_bounds hn hm he he'
  obtain ⟨t, ht⟩ : ∃ t : ℕ, rootExp n m e = (t : ℤ) - 149 := ⟨(rootExp n m e + 149).toNat, by omega⟩
  have hmag : t * 2 ^ 23 + N < 0x7F800000 := by omega
  have hpack : rootRounded n m e = withSign false (t * 2 ^ 23 + N) := by
    rw [heq, ht, sub_add_cancel, Int.toNat_natCast]
    refine BitVec.eq_of_toNat_eq ?_
    rw [withSign_toNat false (by omega), BitVec.toNat_ofNat, Nat.mod_eq_of_lt (by omega), Bool.toNat_false,
      Nat.zero_mul, Nat.zero_add]
  refine ⟨by rw [hpack]; exact isFinite_withSign false hmag, N, hlo, hhi, ?_, hor⟩
  rw [hpack, f32Value_withSign false hhi (.inr hlo) hmag, ht]
  rfl

theorem zpow_log2_le (hm : m ≠ 0) (e : ℤ) : (2 : ℚ) ^ (e + (m.log2 : ℤ)) ≤ m * 2 ^ e := by
  have h : ((2 ^ m.log2 : ℕ) : ℚ) ≤ m := by exact_mod_cast Nat.log2_self_le hm
  rw [add_comm, zpow_add₀ (by norm_num), zpow_natCast]
  gcongr
  exact_mod_cast h

theorem lt_zpow_log2_succ (m : ℕ) (e : ℤ) : (m : ℚ) * 2 ^ e < 2 ^ (e + (m.log2 : ℤ) + 1) := by
  have h : (m : ℚ) < ((2 ^ (m.log2 + 1) : ℕ) : ℚ) := by exact_mod_cast Nat.lt_log2_self
  rw [show e + (m.log2 : ℤ) + 1 = ((m.log2 + 1 : ℕ) : ℤ) + e by push_cast; ring, zpow_add₀ (by norm_num), zpow_natCast]
  gcongr
  exact_mod_cast h

/-- The root of a number that is not below 1 is not below 1. -/
theorem one_le_rootRounded (hn : 2 ≤ n) (hm : m < 2 ^ 24) (he : -149 ≤ e) (he' : e ≤ 104) (h : (1 : ℚ) ≤ m * 2 ^ e) :
    1 ≤ f32Value (rootRounded n m e) := by
  obtain ⟨-, N, hlo, -, hval, -⟩ := f32Value_rootRounded hn hm he he'
  have hlog : 0 < e + (m.log2 : ℤ) + 1 :=
    (one_lt_zpow_iff_right₀ (by norm_num : (1 : ℚ) < 2)).1 (h.trans_lt (lt_zpow_log2_succ m e))
  have hexp : -23 ≤ rootExp n m e := by
    have : 0 ≤ (e + (m.log2 : ℤ)) / n := Int.ediv_nonneg (by omega) (by omega)
    unfold rootExp; omega
  rw [hval]
  calc (1 : ℚ) = (2 ^ 23 : ℕ) * 2 ^ (-23 : ℤ) := by norm_num
    _ ≤ N * 2 ^ rootExp n m e := by gcongr; norm_num

/-- The root of a number that is not above 1 is not above 1. -/
theorem rootRounded_le_one (hn : 2 ≤ n) (h0 : m ≠ 0) (hm : m < 2 ^ 24) (he : -149 ≤ e) (he' : e ≤ 104)
    (h : (m : ℚ) * 2 ^ e ≤ 1) : f32Value (rootRounded n m e) ≤ 1 := by
  obtain ⟨-, N, -, hhi, hval, hor⟩ := f32Value_rootRounded hn hm he he'
  have hlog : e + (m.log2 : ℤ) ≤ 0 :=
    (zpow_le_one_iff_right₀ (by norm_num : (1 : ℚ) < 2)).1 ((zpow_log2_le h0 e).trans h)
  rw [hval]
  obtain hone | hlt := hlog.eq_or_lt
  · have hexp : rootExp n m e = -23 := by rw [rootExp, hone, Int.zero_ediv, zero_sub]
    rw [hexp] at hor ⊢
    have hlow : N = 2 ^ 23 := hor.resolve_right (not_lt.2 (h.trans_eq (by norm_num)))
    rw [hlow]; norm_num
  · have hexp : rootExp n m e ≤ -24 := by
      have := Int.ediv_neg_of_neg_of_pos hlt (show (0 : ℤ) < n by omega)
      unfold rootExp; omega
    calc (N : ℚ) * 2 ^ rootExp n m e ≤ (2 ^ 24 : ℕ) * 2 ^ (-24 : ℤ) := by gcongr; norm_num
      _ = 1 := by norm_num

end Root

/-! ### The contract -/

/-- What R296 asks of a multiplier for a ratio, on values. -/
def GlideContract (r x : F32) : Prop :=
  isFinite x = true ∧ 0 < f32Value x ∧ (1 ≤ f32Value r → 1 ≤ f32Value x) ∧ (f32Value r ≤ 1 → f32Value x ≤ 1)

theorem flt_fPos0_iff {x : F32} (hx : isFinite x = true) : flt fPos0 x = true ↔ 0 < f32Value x := by
  have h0 : f32Value fPos0 = 0 := f32Value_f32Zero false
  rw [flt_eq_decide (by decide) hx, h0, decide_eq_true_eq]

/-- The model's check of a multiplier is the contract on values. -/
theorem glideContract_iff {r : F32} (hr : isFinite r = true) (x : F32) :
    glideContract r x = true ↔ GlideContract r x := by
  rw [glideContract, GlideContract]
  cases hx : isFinite x with
  | false => simp
  | true =>
    rw [fle_eq_decide (by decide) hr, fle_eq_decide hr (by decide), fle_eq_decide (by decide) hx,
      fle_eq_decide hx (by decide), f32Value_f1]
    simp only [Bool.and_eq_true, Bool.or_eq_true, Bool.not_eq_true', decide_eq_true_eq, decide_eq_false_iff_not,
      flt_fPos0_iff hx, ← imp_iff_not_or, true_and, and_assoc]

theorem glideContract_f1 (r : F32) : GlideContract r f1 := by
  refine ⟨by decide, ?_, fun _ => ?_, fun _ => ?_⟩ <;> rw [f32Value_f1]
  exact one_pos

/-- The reference takes the root, or the ratio itself over one tick. -/
theorem glideContract_glideReference {r : F32} (hr : isFinite r = true) (hpos : 0 < f32Value r) (n : ℕ) :
    GlideContract r (glideReference r n) := by
  obtain ⟨m, e, hu⟩ := unpack_of_pos hr hpos
  obtain ⟨_, _, _, hu', hm, he, he'⟩ := unpack_of_finite hr
  cases hu.symm.trans hu'
  have hval : f32Value r = m * 2 ^ e := f32Value_of_unpack hu
  have h0 : m ≠ 0 := by
    rintro rfl
    rw [hval, Nat.cast_zero, zero_mul] at hpos
    exact lt_irrefl _ hpos
  have href : glideReference r n = if n ≤ 1 then r else rootRounded n m e := by
    rw [glideReference, hu]
    exact if_neg h0
  rw [href]
  split
  · exact ⟨hr, hpos, id, id⟩
  · next hn =>
    have hn : 2 ≤ n := by omega
    obtain ⟨hfin, N, hlo, -, hroot, -⟩ := f32Value_rootRounded hn hm he he'
    have hN : (0 : ℚ) < N := by exact_mod_cast (by omega : 0 < N)
    refine ⟨hfin, by rw [hroot]; positivity, fun h => ?_, fun h => ?_⟩
    · exact one_le_rootRounded hn hm he he' (hval ▸ h)
    · exact rootRounded_le_one hn h0 hm he he' (hval ▸ h)

/-- Settles O50: the reference by the binade of the root, any other by the model's check. -/
theorem glideMultipliersMeetTheirContract : Obligations.GlideMultipliersMeetTheirContract := by
  intro i r n hr hpos _
  change GlideContract r (glideMul i r n)
  cases i with
  | reference => exact glideContract_glideReference hr hpos n
  | other k =>
    rw [glideMul, hr, (flt_fPos0_iff hr).2 hpos, Bool.and_true, if_pos rfl]
    split
    · next h => exact (glideContract_iff hr _).1 h
    · exact glideContract_f1 r

end Sys2Proof.Machine
end

section
/-! PROOFS. The tables and scales of the VoiceManager (R286, R290 to R292, R299, R302): the values that are exact. -/

namespace Sys2Proof.Machine

open Sys2Proof

/-! ### Exact products and sums -/

/-- A result of at most 24 bits and its sign, at an exponent a binary32 has, is packed exactly. -/
theorem roundPack_of_int_representable {neg : Bool} {m : ℕ} {e j k : ℤ} (h : signed neg m * 2 ^ e = (j : ℚ) * 2 ^ k)
    (hj : |j| < 2 ^ 24) (hk : -149 ≤ k) (hk' : k ≤ 103) :
    isFinite (roundPack neg m e) = true ∧ f32Value (roundPack neg m e) = j * 2 ^ k := by
  have hmag : (m : ℚ) * 2 ^ e = j.natAbs * 2 ^ k := by
    rw [← abs_signed_mul_zpow neg, h, abs_mul, abs_of_pos (a := (2 : ℚ) ^ k) (by positivity), Nat.cast_natAbs,
      Int.cast_abs]
  have hexact := roundPack_of_representable neg hmag (by rw [Int.abs_eq_natAbs] at hj; exact_mod_cast hj) hk hk'
  rwa [h] at hexact

section Exact
variable {a b : F32} {j k : ℤ}

theorem fmul_exact (ha : isFinite a = true) (hb : isFinite b = true) (h : f32Value a * f32Value b = j * 2 ^ k)
    (hj : |j| < 2 ^ 24) (hk : -149 ≤ k) (hk' : k ≤ 103) :
    isFinite (fmul a b) = true ∧ f32Value (fmul a b) = j * 2 ^ k := by
  obtain ⟨n1, m1, e1, h1, -⟩ := unpack_of_finite ha
  obtain ⟨n2, m2, e2, h2, -⟩ := unpack_of_finite hb
  have hpack : fmul a b = roundPack (n1 ^^ n2) (m1 * m2) (e1 + e2) := by rw [fmul, h1, h2]
  rw [hpack]
  refine roundPack_of_int_representable ?_ hj hk hk'
  rw [← h, f32Value_eq_signed_mul h1, f32Value_eq_signed_mul h2, Nat.cast_mul, ← signed_mul_signed,
    zpow_add₀ (by norm_num)]
  ring

theorem fadd_exact (ha : isFinite a = true) (hb : isFinite b = true) (h : f32Value a + f32Value b = j * 2 ^ k)
    (hj : |j| < 2 ^ 24) (hk : -149 ≤ k) (hk' : k ≤ 103) :
    isFinite (fadd a b) = true ∧ f32Value (fadd a b) = j * 2 ^ k := by
  obtain ⟨n1, m1, e1, h1, -⟩ := unpack_of_finite ha
  obtain ⟨n2, m2, e2, h2, -⟩ := unpack_of_finite hb
  have hsum : ((scaled n1 m1 e1 (minExp e1 e2) + scaled n2 m2 e2 (minExp e1 e2) : ℤ) : ℚ) * 2 ^ minExp e1 e2 =
      j * 2 ^ k := by
    rw [← h, Int.cast_add, add_mul, scaled_value n1 m1 (minExp_le_left e1 e2),
      scaled_value n2 m2 (minExp_le_right e1 e2), f32Value_of_unpack h1, f32Value_of_unpack h2]
  rw [fadd, addCore_fin _ _ _ h1 h2, addFin]
  generalize scaled n1 m1 e1 (minExp e1 e2) + scaled n2 m2 e2 (minExp e1 e2) = s at hsum ⊢
  split
  · next hs =>
    rw [f32Value_f32Zero, ← hsum, hs, Int.cast_zero, zero_mul]
    exact ⟨isFinite_withSign _ (by omega), rfl⟩
  · exact roundPack_of_int_representable (by rw [← int_eq_signed, hsum]) hj hk hk'

end Exact

/-! ### Tune, pitch and touch (R286, R299, R302) -/

theorem f32Value_f2m17 : f32Value f2m17 = 2 ^ (-17 : ℤ) := by
  rw [f32Value_of_unpack (show unpack f2m17 = .fin false (2 ^ 23) (-40) by decide)]; norm_num

theorem f32Value_f2m13 : f32Value f2m13 = 2 ^ (-13 : ℤ) := by
  rw [f32Value_of_unpack (show unpack f2m13 = .fin false (2 ^ 23) (-36) by decide)]; norm_num

/-- A controller value around its middle has 14 bits. -/
theorem abs_centred_le (val : BitVec 14) : |(val.toNat : ℤ) - 8192| ≤ 8192 := by
  have := val.isLt
  rw [abs_le]
  omega

theorem centredVal_exact (val : BitVec 14) :
    isFinite (centredVal val) = true ∧ f32Value (centredVal val) = ((val.toNat : ℤ) - 8192 : ℤ) :=
  i2f_exact ((abs_centred_le val).trans (by norm_num))

/-- A power of two scales the centred value without rounding. -/
theorem fmul_centredVal_exact (val : BitVec 14) {x : F32} {k : ℤ} (hx : isFinite x = true) (h : f32Value x = 2 ^ k)
    (hk : -149 ≤ k) (hk' : k ≤ 103) :
    isFinite (fmul (centredVal val) x) = true ∧
      f32Value (fmul (centredVal val) x) = ((val.toNat : ℤ) - 8192 : ℤ) * 2 ^ k := by
  obtain ⟨hfin, hval⟩ := centredVal_exact val
  exact fmul_exact hfin hx (by rw [hval, h]) ((abs_centred_le val).trans_lt (by norm_num)) hk hk'

theorem f32Value_pitchOfVal (val : BitVec 14) : f32Value (pitchOfVal val) = ((val.toNat : ℚ) - 8192) / 2 ^ 13 := by
  rw [pitchOfVal, (fmul_centredVal_exact val (by decide) f32Value_f2m13 (by norm_num) (by norm_num)).2, zpow_neg,
    ← div_eq_mul_inv]
  push_cast
  rfl

/-- The sum with 1 is a whole number of `2^-17` of at most 18 bits. -/
theorem f32Value_tuneOfVal (val : BitVec 14) :
    f32Value (tuneOfVal val) = 1 + ((val.toNat : ℚ) - 8192) / 2 ^ 17 := by
  obtain ⟨hfin, hval⟩ := fmul_centredVal_exact val (by decide) f32Value_f2m17 (by norm_num) (by norm_num)
  have hsum : f32Value f1 + f32Value (fmul (centredVal val) f2m17) =
      ((2 ^ 17 + ((val.toNat : ℤ) - 8192) : ℤ) : ℚ) * 2 ^ (-17 : ℤ) := by
    rw [f32Value_f1, hval, Int.cast_add, add_mul]
    norm_num
  have hsmall : |2 ^ 17 + ((val.toNat : ℤ) - 8192)| < 2 ^ 24 := by
    have := val.isLt
    rw [abs_lt]
    omega
  rw [tuneOfVal, (fadd_exact (by decide) hfin hsum hsmall (by norm_num) (by norm_num)).2]
  push_cast
  rw [add_mul, zpow_neg, ← div_eq_mul_inv, ← div_eq_mul_inv]
  norm_num

/-- Settles O47: one product by a power of two, a sum of few bits, and the touch scale of each of the 128 velocities. -/
theorem tunePitchAndTouchValues : Obligations.TunePitchAndTouchValues := by
  have hoff : ∀ vel : Velocity, touchScale 0x00000000#32 vel = 0x3F800000#32 := by decide
  have hfull : ∀ vel : Velocity, touchScale 0x3F800000#32 vel = fdiv (i2f vel.toNat) 0x42FE0000#32 := by decide
  exact ⟨fun val => ⟨f32Value_tuneOfVal val, f32Value_pitchOfVal val⟩, fun touch vel => ⟨rfl, hoff vel, hfull vel⟩⟩

/-! ### The key and semitone tables (R290 to R292) -/

/-- Each table entry is within half a millihertz of the equal temperament. -/
theorem ftabMHz_equal_temperament : ∀ key : Key,
    (2 * ftabMHz key - 1) ^ 12 * 2 ^ 69 ≤ (2 * 440000) ^ 12 * 2 ^ key.toNat ∧
      (2 * 440000) ^ 12 * 2 ^ key.toNat ≤ (2 * ftabMHz key + 1) ^ 12 * 2 ^ 69 := by
  decide

/-- The register value is the saturated whole part of the exact quotient. -/
theorem freqOfMHz_toNat (mHz clk : ℕ) : ((freqOfMHz mHz clk).toNat : ℤ) =
    min 65535 ⌊(2 * (mHz : ℚ) * 2 ^ 24 + 1000 * clk) / (2000 * (clk : ℚ))⌋ := by
  have hquot : (2 * (mHz : ℚ) * 2 ^ 24 + 1000 * clk) / (2000 * (clk : ℚ)) =
      ((2 * mHz * 2 ^ 24 + 1000 * clk : ℕ) : ℚ) / ((2000 * clk : ℕ) : ℚ) := by
    push_cast
    rfl
  rw [hquot, Rat.floor_natCast_div_natCast, freqOfMHz, BitVec.toNat_ofNat, Nat.mod_eq_of_lt (by omega), Nat.cast_min]
  rfl

/-- The 24-bit significand of a semitone of the octave. -/
def semiSignificand (r : ℕ) : ℕ := semiOctave r % 2 ^ 23 + 2 ^ 23

/-- The semitones of the four octaves from -24: the octave is in the exponent, the semitone in the significand. -/
theorem unpack_semi : ∀ t : Fin 49, unpack (semi (BitVec.ofInt 8 ((t.val : ℤ) - 24))) =
    .fin false (semiSignificand (t.val % 12)) ((t.val / 12 : ℕ) - 25) := by
  decide

theorem f32Value_semi {t : ℕ} (ht : t < 49) :
    f32Value (semi (BitVec.ofInt 8 ((t : ℤ) - 24))) = semiSignificand (t % 12) * 2 ^ (((t / 12 : ℕ) : ℤ) - 25) :=
  f32Value_of_unpack (unpack_semi ⟨t, ht⟩)

/-- Each significand is within half a place of the twelfth root of the power of two. -/
theorem semiSignificand_nearest : ∀ r : Fin 12, (2 * semiSignificand r - 1) ^ 12 ≤ 2 ^ r.val * (2 ^ 24) ^ 12 ∧
    2 ^ r.val * (2 ^ 24) ^ 12 ≤ (2 * semiSignificand r + 1) ^ 12 := by
  decide

/-- Settles O48: the tables entry by entry, the register value by the whole part of a quotient. -/
theorem keyAndSemitoneTables : Obligations.KeyAndSemitoneTables := by
  refine ⟨ftabMHz_equal_temperament, fun key clk => freqOfMHz_toNat _ _,
    fun r => ⟨semiSignificand r, ?_, semiSignificand_nearest r⟩, fun t => ?_⟩
  · have hr := r.isLt
    have harg : BitVec.ofNat 8 r.val = BitVec.ofInt 8 (((r.val + 24 : ℕ) : ℤ) - 24) := by
      rw [Nat.cast_add, Nat.cast_ofNat, add_sub_cancel_right, BitVec.ofInt_natCast]
    rw [harg, f32Value_semi (by omega), show (r.val + 24) % 12 = r by omega, show (r.val + 24) / 12 = 2 by omega,
      div_eq_mul_inv]
    norm_num
  · have ht := t.isLt
    have harg : (t.val : ℤ) - 24 + 12 = ((t.val + 12 : ℕ) : ℤ) - 24 := by omega
    rw [harg, f32Value_semi (by omega), f32Value_semi (by omega), Nat.add_mod_right, Nat.add_div_right _ (by decide),
      Nat.cast_succ, add_sub_right_comm, zpow_add_one₀ (by norm_num)]
    ring

end Sys2Proof.Machine
end

section
/-! PROOFS. Failures and the frame of a command (R330 to R340, R348): what each kind of command can do, said once by the check it
makes, and from it that a failure leaves no record. -/

namespace Sys2Proof.Machine

open Sys2Proof

/-! ### What each kind of command can do -/

@[simp] theorem Response.isFail_ok (v : BitVec 32) : (Response.ok v).isFail = false := rfl

/-- A failure shows its code in the response (R331). -/
theorem failed_code_inj {s : State} {code code' : FailCode} {v v' : BitVec 32}
    (h : (.next (s.failed code v) : Host.Outcome State Fault Refusal) = .next (s.failed code' v')) : code = code' := by
  injection h with hstate
  cases congrArg State.rsp hstate
  rfl

/-- An outcome with successes only is no failure. -/
theorem ne_failed_of_success {o : Host.Outcome State Fault Refusal} {s t : State} {code : FailCode} {v : BitVec 32}
    (ho : o = .next t) (hok : ∀ r ∈ t.rsp, r.isFail = false) : o ≠ .next (s.failed code v) := by
  intro hfailed
  injection ho.symm.trans hfailed with hstate
  cases hok (.fail code v) (by rw [hstate]; exact List.mem_singleton_self _)

theorem wordSentinel_encodeWr (a h d : Byte) : wordSentinel (encodeWr a h d) = 0xFFFFFFFF#32 := by
  rw [wordSentinel, encodeWr, fieldClass_mkWord]; rfl

theorem wordSentinel_encodeIo (c h : Byte) (p : F32) : wordSentinel (encodeIo c h p) = 0xBF800000#32 := by
  rw [wordSentinel, encodeIo, fieldClass_mkWord]; rfl

/-- The outcome `o` is that of a command on handle field `h` (R332): the handle check fails with sentinel `v`, or only the slot
of the handle changes and the response is a success. -/
abbrev ChecksHandle (s : State) (h : Byte) (v : BitVec 32) (o : Host.Outcome State Fault Refusal) : Prop :=
  (HandleInvalid s h ∧ o = .next (s.failed .badHandle v)) ∨
  ∃ (c : Chip) (y : Option Chip) (x : BitVec 32), HandleOf s h h.toNat c
    ∧ o = .next { s with pool := s.pool.set h.toNat y, rsp := [.ok x] }

theorem wrCommand_checksHandle (r : Reg) (h d : Byte) (s : State) :
    ChecksHandle s h 0xFFFFFFFF#32 (wrCommand r h d s) := by
  obtain hbad | ⟨n, c, hh, heq⟩ := wrCommand_cases r h d s
  · exact .inl hbad
  · obtain ⟨-, rfl, -⟩ := id hh
    exact .inr ⟨c, _, _, hh, heq⟩

theorem ioCommand_checksHandle (f : Chip → Chip × F32) (h : Byte) (s : State) :
    ChecksHandle s h 0xBF800000#32 (ioCommand f h s) := by
  obtain hbad | ⟨n, c, hh, heq⟩ := ioCommand_cases f h s
  · exact .inl hbad
  · obtain ⟨-, rfl, -⟩ := id hh
    exact .inr ⟨c, _, _, hh, heq⟩

theorem execDestroy_checksHandle (h : Byte) (p : F32) (s : State) :
    ChecksHandle s h 0xBF800000#32 (execDestroy h p s) := by
  cases hl : s.lookup h with
  | none => exact .inl ⟨State.lookup_eq_none.1 hl, execDestroy_of_invalid p (State.lookup_eq_none.1 hl)⟩
  | some x =>
    obtain ⟨n, c⟩ := x
    have hh := State.lookup_eq_some.1 hl
    obtain ⟨-, rfl, -⟩ := id hh
    exact .inr ⟨c, none, fPos0, hh, execDestroy_of_handle p hh⟩

/-- Every WR command and every IO command but CREATE checks its handle. -/
theorem exec_checksHandle {i : Instr} {h : Byte} (hi : handleOperand i = some h) (s : State) :
    ChecksHandle s h (wordSentinel (encode i)) (exec i s) := by
  cases i with
  | create => cases hi
  | noteOn => cases hi
  | noteOff => cases hi
  | ctrlChange => cases hi
  | clk => cases hi
  | destroy b p => cases hi; exact wordSentinel_encodeIo .. ▸ execDestroy_checksHandle h p s
  | advance b p => cases hi; exact wordSentinel_encodeIo .. ▸ ioCommand_checksHandle _ h s
  | setGain b p => cases hi; exact wordSentinel_encodeIo .. ▸ ioCommand_checksHandle _ h s
  | setDetune b p => cases hi; exact wordSentinel_encodeIo .. ▸ ioCommand_checksHandle _ h s
  | setLeakage b p => cases hi; exact wordSentinel_encodeIo .. ▸ ioCommand_checksHandle _ h s
  | setSnr b p => cases hi; exact wordSentinel_encodeIo .. ▸ ioCommand_checksHandle _ h s
  | setDcbias b p => cases hi; exact wordSentinel_encodeIo .. ▸ ioCommand_checksHandle _ h s
  | setPolemix b p => cases hi; exact wordSentinel_encodeIo .. ▸ ioCommand_checksHandle _ h s
  | setClockrate b p => cases hi; exact wordSentinel_encodeIo .. ▸ ioCommand_checksHandle _ h s
  | _ b d => cases hi; exact wordSentinel_encodeWr .. ▸ wrCommand_checksHandle _ h d s

/-- Everything CREATE can do (R151): fail on a full pool, or make a dead slot live. -/
theorem execCreate_cases (h : Byte) (p : F32) (s : State) :
    execCreate h p s = .next (s.failed .poolFull 0xBF800000#32) ∨
    ∃ n : ℕ, s.pool[n]? = some none
      ∧ execCreate h p s = .next { s with pool := s.pool.set n (some chipCreated), rsp := [.ok (i2f n)] } := by
  cases hl : leastDead s.pool with
  | none => exact .inl (execCreate_of_full h p (leastDead_eq_none.1 hl))
  | some n =>
    obtain ⟨hdead, hlive⟩ := leastDead_eq_some.1 hl
    exact .inr ⟨n, hdead, execCreate_of_leastDead h p hdead hlive⟩

/-- The outcome `o` is that of an event or a CLK (R263, R267): the pair check or the controller index fails, or the engine of
the live pair moves and every response is a success. -/
abbrev ChecksPair (s : State) (o : Host.Outcome State Fault Refusal) : Prop :=
  (∃ v, PairBroken s ∧ o = .next (s.failed .badHandle v)) ∨ o = .next (s.failed .badCtrl 0xFFFFFFFF#32) ∨
  ∃ (e : Engine) (l : List (BitVec 32)), o = .next ((s.withEngine e).withRsp (l.map .ok))

theorem evCommand_checksPair (f : Engine → Engine) (s : State) : ChecksPair s (evCommand f s) := by
  obtain hb | ⟨a, m, hp⟩ := pair_or_broken s
  · exact .inl ⟨_, hb, evCommand_of_broken f hb⟩
  · exact .inr (.inr ⟨_, [0#32], evCommand_of_pair f hp⟩)

theorem execCtrlChange_checksPair (idx : BitVec 7) (val : BitVec 14) (s : State) :
    ChecksPair s (execCtrlChange idx val s) := by
  obtain hidx | hidx := Nat.lt_or_ge 99 idx.toNat
  · exact .inr (.inl (execCtrlChange_of_gt hidx val s))
  · rw [execCtrlChange_of_le hidx]
    exact evCommand_checksPair _ s

theorem execClk_checksPair (s : State) : ChecksPair s (execClk s) := by
  obtain hb | ⟨a, m, hp⟩ := pair_or_broken s
  · exact .inl ⟨_, hb, execClk_of_broken hb⟩
  · exact .inr (.inr ⟨_, _, execClk_of_pair hp⟩)

/-- Every command without a handle operand but CREATE checks the pair. -/
theorem exec_checksPair {i : Instr} (hi : handleOperand i = none) (hcreate : ∀ h p, i ≠ .create h p) (s : State) :
    ChecksPair s (exec i s) := by
  cases i with
  | create h p => exact absurd rfl (hcreate h p)
  | noteOn key vel => exact evCommand_checksPair _ s
  | noteOff key vel => exact evCommand_checksPair _ s
  | ctrlChange idx val => exact execCtrlChange_checksPair idx val s
  | clk => exact execClk_checksPair s
  | _ => cases hi

/-- The commands by the check they make. -/
theorem handle_or_create_or_pair (i : Instr) : (∃ h, handleOperand i = some h) ∨ (∃ h p, i = .create h p) ∨
    (handleOperand i = none ∧ ∀ h p, i ≠ .create h p) := by
  cases hop : handleOperand i with
  | some h => exact .inl ⟨h, rfl⟩
  | none =>
    by_cases hcreate : ∃ h p, i = .create h p
    · exact .inr (.inl hcreate)
    · exact .inr (.inr ⟨rfl, fun h p hi => hcreate ⟨h, p, hi⟩⟩)

/-! ### The frame (R268, R348) -/

/-- Settles O9: by the check the command makes, each with the slots it can write. -/
theorem otherChipsAreUntouched : Obligations.OtherChipsAreUntouched := by
  intro i s t hexec
  refine ⟨fun h hi => ?_, fun h p hi => ?_, fun hi hcreate n hn => ?_⟩
  · obtain ⟨-, heq⟩ | ⟨c, y, x, -, heq⟩ := exec_checksHandle hi s
    · cases heq.symm.trans hexec
      exact ⟨rfl, fun n _ => rfl⟩
    · cases heq.symm.trans hexec
      exact ⟨rfl, fun n hn => List.getElem?_set_ne hn.symm⟩
  · subst hi
    obtain heq | ⟨n, hdead, heq⟩ := execCreate_cases h p s
    · cases heq.symm.trans hexec
      exact ⟨rfl, .inl rfl⟩
    · cases heq.symm.trans hexec
      exact ⟨rfl, .inr ⟨n, hdead, fun m hm => List.getElem?_set_ne hm.symm⟩⟩
  · obtain ⟨v, -, heq⟩ | heq | ⟨e, l, heq⟩ := exec_checksPair hi hcreate s
    · cases heq.symm.trans hexec
      rfl
    · cases heq.symm.trans hexec
      rfl
    · cases heq.symm.trans hexec
      exact (List.getElem?_set_ne (by omega)).trans (List.getElem?_set_ne (by omega))

/-! ### The handle check (R332) -/

/-- An event or CLK word has no handle field (R85, R86). -/
theorem decode_of_handle_in_pair_class {w : CmdWord} (hk : fieldClass w = 2#4 ∨ fieldClass w = 3#4)
    (hh : fieldHandle w ≠ 0#8) : decode w = .error (.badCmd (classOf w)) := by
  obtain hev | hclk := hk
  · exact decode_ev_of_none hev (.inl hh)
  · obtain hbad | ⟨h, sel, p, rfl⟩ := decode_badCmd_or_fields hclk
    · exact hbad
    · rw [fieldHandle_mkWord] at hh
      rw [decode_mkWord_clk, if_neg fun hz => hh hz.1, classOf_of_clk hclk]

/-- Settles O13: the handle check decides between its failure and a success, CREATE has its own failure only, and the pair
check is the one way to `BadHandle` without a handle. -/
theorem anInvalidHandleFails : Obligations.AnInvalidHandleFails := by
  refine ⟨fun i h s hi => ?_, fun h h' p s => rfl, fun h p s v hexec => ?_,
    fun w hk hh => ⟨_, decode_of_handle_in_pair_class hk hh⟩, fun i s v hi hcreate hexec => ?_⟩
  · obtain ⟨hbad, heq⟩ | ⟨c, y, x, hh, heq⟩ := exec_checksHandle hi s
    · exact iff_of_true hbad heq
    · refine iff_of_false (fun hbad => ?_) (ne_failed_of_success heq (by simp))
      cases (State.lookup_eq_none.2 hbad).symm.trans (State.lookup_eq_some.2 hh)
  · obtain heq | ⟨n, -, heq⟩ := execCreate_cases h p s
    · cases failed_code_inj (heq.symm.trans hexec)
    · exact ne_failed_of_success heq (by simp) hexec
  · obtain ⟨-, hb, -⟩ | heq | ⟨e, l, heq⟩ := exec_checksPair hi hcreate s
    · exact hb
    · cases failed_code_inj (heq.symm.trans hexec)
    · exact absurd hexec (ne_failed_of_success heq (by simp))

/-! ### The address check (R333) -/

/-- The WR command of an address is that of the register there (R23, R82). -/
theorem exec_of_decodeWr {a h d : Byte} {i : Instr} (hi : decodeWr a h d = some i) :
    ∃ r : Reg, r.addr = a.toNat ∧ ∀ s, exec i s = wrCommand r h d s := by
  unfold decodeWr at hi
  split at hi <;> cases hi <;> exact ⟨_, Eq.symm ‹_›, fun _ => rfl⟩

/-- A word past the last register is refused for its address (R333). -/
theorem decode_encodeWr_of_gt {a : Byte} (ha : 0x1D < a.toNat) (h d : Byte) :
    decode (encodeWr a h d) = .error (.badAddr h) := by
  have hnone : decodeWr a h d = none := by
    rw [← Option.not_isSome_iff_eq_none, decodeWr_isSome]
    simpa using ha
  have hz : (0#24 ++ d).extractLsb' 8 24 = 0#24 := BitVec.extractLsb'_append_eq_left
  have hd : (0#24 ++ d).extractLsb' 0 8 = d := BitVec.extractLsb'_append_eq_right
  rw [encodeWr, decode_mkWord_wr, if_pos hz, hd, hnone, Option.elim]

theorem perform_encodeWr_of_gt {a : Byte} (ha : 0x1D < a.toNat) (h d : Byte) (s : State) :
    perform (encodeWr a h d) s = rejectWord (.badAddr h) s := by
  rw [perform, decode_encodeWr_of_gt ha]

/-- A word up to the last register is the write of that register (R110). -/
theorem perform_encodeWr_of_le {a : Byte} (ha : a.toNat ≤ 0x1D) (h d : Byte) :
    ∃ r : Reg, r.addr = a.toNat ∧ ∀ s, perform (encodeWr a h d) s = wrCommand r h d s := by
  obtain ⟨i, hi⟩ := Option.isSome_iff_exists.1 ((decodeWr_isSome a h d).trans (decide_eq_true ha))
  obtain ⟨r, hr, hexec⟩ := exec_of_decodeWr hi
  exact ⟨r, hr, fun s => by rw [perform, decode_encodeWr hi, ← hexec]⟩

/-- Settles O14: an address past the last register by the handle check of `rejectWord`, the others as register writes. -/
theorem theAddressCheckFollowsTheHandleCheck : Obligations.TheAddressCheckFollowsTheHandleCheck := by
  intro s s' h a d hnext
  have ⟨_, _, hs'⟩ := hnext
  have hpool : s'.pool = s.pool := by rw [hs']
  rw [step_of_commandNext hnext]
  refine ⟨fun ha hbad => ?_, fun n c ha hh => ?_, fun n c ha hh => ?_⟩
  · have hnone : s'.lookup h = none := State.lookup_eq_none.2 (by rwa [HandleInvalid, hpool])
    rw [perform_encodeWr_of_gt ha, rejectWord, hnone]
    rfl
  · have hsome : s'.lookup h = some (n, c) := State.lookup_eq_some.2 (by rwa [HandleOf, hpool])
    rw [perform_encodeWr_of_gt ha, rejectWord, hsome]
    rfl
  · obtain ⟨r, hr, hperform⟩ := perform_encodeWr_of_le ha h d
    have hh' : HandleOf s' h n c := by rwa [HandleOf, hpool]
    exact ⟨_, _, (hperform s').trans (wrCommand_of_handle r hh'), rfl, ⟨r.addr, r.addr_lt⟩, hr, rfl⟩

/-! ### A failure leaves no record (R335, R336) -/

/-- A command fails and leaves only its failure, or answers successes only. -/
theorem exec_fails_or_succeeds (i : Instr) (s : State) :
    (∃ code v, exec i s = .next (s.failed code v)) ∨ ∃ t, exec i s = .next t ∧ ∀ r ∈ t.rsp, r.isFail = false := by
  obtain ⟨h, hi⟩ | ⟨h, p, rfl⟩ | ⟨hi, hcreate⟩ := handle_or_create_or_pair i
  · obtain ⟨-, heq⟩ | ⟨c, y, x, -, heq⟩ := exec_checksHandle hi s
    · exact .inl ⟨_, _, heq⟩
    · exact .inr ⟨_, heq, by simp⟩
  · obtain heq | ⟨n, -, heq⟩ := execCreate_cases h p s
    · exact .inl ⟨_, _, heq⟩
    · exact .inr ⟨_, heq, by simp⟩
  · obtain ⟨v, -, heq⟩ | heq | ⟨e, l, heq⟩ := exec_checksPair hi hcreate s
    · exact .inl ⟨_, _, heq⟩
    · exact .inl ⟨_, _, heq⟩
    · exact .inr ⟨_, heq, by simp⟩

/-- So does every word. -/
theorem perform_fails_or_succeeds (w : CmdWord) (s : State) :
    (∃ code v, perform w s = .next (s.failed code v)) ∨
      ∃ t, perform w s = .next t ∧ ∀ r ∈ t.rsp, r.isFail = false := by
  unfold perform
  cases decode w with
  | ok i => exact exec_fails_or_succeeds i s
  | error e =>
    obtain ⟨cls, code, heq⟩ := rejectWord_cases e s
    exact .inl ⟨code, _, heq⟩

/-- No command reads the responses of the command before it: each meaning writes its own over them, so for each command the two
sides are one term. -/
theorem exec_withRsp (i : Instr) (s : State) (r : List Response) : exec i { s with rsp := r } = exec i s := by
  cases i <;> rfl

theorem rejectWord_withRsp (e : DecodeError) (s : State) (r : List Response) :
    rejectWord e { s with rsp := r } = rejectWord e s := by
  cases e <;> rfl

theorem perform_withRsp (w : CmdWord) (s : State) (r : List Response) :
    perform w { s with rsp := r } = perform w s := by
  unfold perform
  cases decode w with
  | ok i => exact exec_withRsp i s r
  | error e => exact rejectWord_withRsp e s r

/-- A step that performs a word does not read the responses either. -/
theorem step_withRsp {s u : State} {r : List Response} {v : CmdWord} (hnext : CommandNext { s with rsp := r } v u) :
    step { s with rsp := r } = step s := by
  have ⟨hmove, hport, hu⟩ := hnext
  have hnext' : CommandNext s v { u with rsp := s.rsp } := ⟨hmove, hport, by rw [hu]⟩
  rw [step_of_commandNext hnext, step_of_commandNext hnext']
  exact (perform_withRsp v u s.rsp).symm

/-- Settles O7: a failing word leaves the state but for its response, which no command reads. -/
theorem aFailureLeavesNoRecord : Obligations.AFailureLeavesNoRecord := by
  rintro s s' t w hnext hstep ⟨r, hr, hfail⟩
  rw [step_of_commandNext hnext] at hstep
  obtain ⟨code, v, heq⟩ | ⟨t', heq, hok⟩ := perform_fails_or_succeeds w s'
  · cases heq.symm.trans hstep
    exact ⟨rfl, rfl, fun u v' hnext' => step_withRsp hnext'⟩
  · cases heq.symm.trans hstep
    rw [hok r hr] at hfail
    cases hfail

/-! ### Every step answers (R330, R342) -/

/-- Settles O5: a context's move and an idle move of the core answer, and so does every word performed. -/
theorem everyStepAnswers : Obligations.EveryStepAnswers := by
  intro s
  obtain ⟨c, -, heq⟩ | ⟨-, -, heq⟩ | ⟨w, rest, -, -, heq⟩ := step_cases s
  · exact ⟨_, heq⟩
  · exact ⟨_, heq⟩
  · obtain ⟨t, heq', -⟩ := perform_effect w { s.advance with port := rest }
    exact ⟨t, heq.trans heq'⟩

end Sys2Proof.Machine
end

section
/-! PROOFS. Engine reset (R362): the values it holds, that they are well-formed, and that nothing moves by itself. -/

namespace Sys2Proof.Machine

open Sys2Proof

/-- Settles O3: no move is listed to be used up, so the core moves, and it finds no word. -/
theorem idleStepChangesNothing : Obligations.IdleStepChangesNothing := by
  intro s hport hmoves
  have hadvance : s.advance = s := by rw [State.advance, Agents.advance, hmoves, List.tail_nil, ← hmoves]
  rw [step, Agents.next, hmoves]
  simp only
  rw [hadvance, performFirst, hport]

/-- The slots of an engine reset (R362): two live chips, then dead slots. -/
theorem resetWith_pool_getElem? (k : Cfg) (poolSize arpCap : ℕ) {n : ℕ} (h2 : 2 ≤ n) (hn : n < poolSize) :
    (State.resetWith k poolSize arpCap).pool[n]? = some none := by
  obtain ⟨m, rfl⟩ := Nat.exists_eq_add_of_le' h2
  exact List.getElem?_replicate_of_lt (by omega)

/-- The key map, the tracked keys and the velocities of an engine reset (R51). -/
theorem vmReset_keys (k : Cfg) (arpCap : ℕ) (key : Key) : (vmReset k arpCap).isDown key = false ∧
    (vmReset k arpCap).isKnown key = false ∧ (vmReset k arpCap).velOf key = 0#7 :=
  ⟨Vector.getElem_replicate _, Vector.getElem_replicate _, Vector.getElem_replicate _⟩

theorem vmReset_voice (k : Cfg) (arpCap : ℕ) (v : VoiceId) : (vmReset k arpCap).voice v = policyVoiceReset := by
  cases v <;> rfl

/-- Settles O1: the slots and the keys by their places, the voices one by one, every other value as it stands. -/
theorem engineResetHoldsTheStatedValues : Obligations.EngineResetHoldsTheStatedValues := by
  intro k poolSize arpCap hsize s
  have hlen : s.pool.length = poolSize := by
    simp only [s, State.resetWith, List.length_cons, List.length_replicate]
    omega
  refine ⟨hlen, rfl, rfl, fun n => resetWith_pool_getElem? k poolSize arpCap, by decide, fun v => ?_, rfl, rfl, rfl, rfl,
    vmReset_keys k arpCap, rfl, vmReset_voice k arpCap, rfl, rfl, rfl, rfl, rfl, rfl, rfl, rfl, rfl, rfl, rfl, rfl, rfl, rfl,
    rfl, rfl, rfl⟩
  cases v <;> rfl

/-- Settles O58: the chips as CREATE leaves them are well-formed, and no voice holds a key. -/
theorem theResetStateIsWellFormed : Obligations.TheResetStateIsWellFormed := by
  have hkeys (v : VoiceId) (key : Key) : (State.reset.vm.voice v).vkey ≠ some key := by
    rw [State.reset, State.resetWith, vmReset_voice]
    nofun
  refine ⟨by decide, fun c hc => ?_, by decide,
    fun _ => ⟨fun v key h => absurd h (hkeys v key), fun v w key h => absurd h (hkeys v key)⟩⟩
  obtain rfl : c = chipCreated := by simpa [State.reset, State.resetWith] using hc
  exact chipWf_chipCreated

end Sys2Proof.Machine
end
